-- ==== Sys2Proof/Word.lean ====
section
/-! DEFINITION. The words the block moves: the 32-bit command, response and storage word (R80, R60), the byte lane
of a storage word (R64), the 16-bit configuration register (R24), the 17-bit pattern (R8) and the codeword (R7). -/

namespace Sys2Proof

/-- A command word, a response word, a storage word of a packed bit buffer (R80, R61). -/
abbrev Word := BitVec 32

/-- One byte lane of a storage word (R64). -/
abbrev Byte := BitVec 8

/-- A configuration register or a fault detail (R24, R291). -/
abbrev Half := BitVec 16

/-- A 17-module pattern (R8, R210). -/
abbrev Pattern := BitVec 17

/-- `P`, the modulus of the corrector's arithmetic (R7). -/
abbrev P : Nat := 929

/-- A codeword or an accumulator slot's value: an integer in 0..928 (R7, R12, R37). -/
abbrev Codeword := Fin 929

end Sys2Proof
end

