-- ==== Sys2Proof/Syntax.lean ====
section
/-! DEFINITION. The 41 commands of the block, one constructor per row of spec/opcode_table.json (R86). Operands are the
unsigned integers R82 takes from their fields, named as R86's operand column names them. -/

namespace Sys2Proof

/-- The complete command set (R86). -/
inductive Instr where
  /-- `NOP` (R100). -/
  | nop
  /-- `WRCFG reg, imm16` (R101). -/
  | wrcfg (reg imm16 : Nat)
  /-- `RDREG reg` (R102). -/
  | rdreg (reg : Nat)
  /-- `BEGIN` (R103). -/
  | begin_
  /-- `SRESET` (R104). -/
  | sreset
  /-- `ECC.START` (R126). -/
  | eccStart
  /-- `ECC.PUSH cw` (R127). -/
  | eccPush (cw : Nat)
  /-- `ECC.RUN` (R128). -/
  | eccRun
  /-- `ECC.FIN` (R129). -/
  | eccFin
  /-- `ECC.RDACC j` (R130). -/
  | eccRdacc (j : Nat)
  /-- `ECC.CHK` (R131). -/
  | eccChk
  /-- `CW.WR idx, cw` (R150). -/
  | cwWr (idx cw : Nat)
  /-- `CW.RD idx` (R151). -/
  | cwRd (idx : Nat)
  /-- `PB.CLR` (R161). -/
  | pbClr
  /-- `PB.FILL` (R162). -/
  | pbFill
  /-- `PB.GETB i` (R163). -/
  | pbGetb (i : Nat)
  /-- `PB.SETB i` (R164). -/
  | pbSetb (i : Nat)
  /-- `PB.CLRB i` (R165). -/
  | pbClrb (i : Nat)
  /-- `PB.ANDI mask` (R166). -/
  | pbAndi (mask : Nat)
  /-- `PB.BYTE b` (R168). -/
  | pbByte (b : Nat)
  /-- `FB.CLR` (R169). -/
  | fbClr
  /-- `FB.FILL` (R170). -/
  | fbFill
  /-- `FB.GETB i` (R171). -/
  | fbGetb (i : Nat)
  /-- `FB.SETB i` (R172). -/
  | fbSetb (i : Nat)
  /-- `FB.CLRB i` (R173). -/
  | fbClrb (i : Nat)
  /-- `FB.BYTE b` (R174). -/
  | fbByte (b : Nat)
  /-- `GRID.INIT` (R190). -/
  | gridInit
  /-- `PX.SET x, y` (R191). -/
  | pxSet (x y : Nat)
  /-- `PX.CLR x, y` (R192). -/
  | pxClr (x y : Nat)
  /-- `PX.GET x, y` (R193). -/
  | pxGet (x y : Nat)
  /-- `GRID.RAWB r` (R194). -/
  | gridRawb (r : Nat)
  /-- `PAT.LD c, v` (R211). -/
  | patLd (c v : Nat)
  /-- `PAT.START` (R212). -/
  | patStart
  /-- `PAT.STOP` (R213). -/
  | patStop
  /-- `IND.L row` (R216). -/
  | indL (row : Nat)
  /-- `IND.R row` (R217). -/
  | indR (row : Nat)
  /-- `DRAW.BAR row, m` (R219). -/
  | drawBar (row m : Nat)
  /-- `DRAW.SPC row, m` (R220). -/
  | drawSpc (row m : Nat)
  /-- `DRAW.PB row, slot` (R221). -/
  | drawPb (row slot : Nat)
  /-- `RENDER.ROW row` (R223). -/
  | renderRow (row : Nat)
  /-- `RENDER` (R224). -/
  | render
  deriving DecidableEq, Repr

end Sys2Proof
end

