-- ==== Sys2Proof/WellFormed.lean ====
section
/-! DEFINITION. When a command term can be encoded: each operand fits the field R81 and R86 give it. -/

namespace Sys2Proof

/-- `reg` fits `cmd[23:16]` (R81, format RI). -/
def fitsReg (reg : Nat) : Bool := decide (reg < 2 ^ 8)

/-- `imm16` fits `cmd[15:0]` (R81, format RI). -/
def fitsImm16 (v : Nat) : Bool := decide (v < 2 ^ 16)

/-- `imm24` fits `cmd[23:0]` (R81, format I). -/
def fitsImm24 (v : Nat) : Bool := decide (v < 2 ^ 24)

/-- `a` or `b` fits `cmd[23:12]` or `cmd[11:0]` (R81, format AB). -/
def fitsImm12 (v : Nat) : Bool := decide (v < 2 ^ 12)

/-- Every operand fits its field; whether the value is legal for the command is the command's own test (R82). -/
def Instr.wf : Instr → Bool
  | .nop => true
  | .wrcfg reg imm16 => fitsReg reg && fitsImm16 imm16
  | .rdreg reg => fitsReg reg
  | .begin_ => true
  | .sreset => true
  | .eccStart => true
  | .eccPush cw => fitsImm24 cw
  | .eccRun => true
  | .eccFin => true
  | .eccRdacc j => fitsImm24 j
  | .eccChk => true
  | .cwWr idx cw => fitsImm12 idx && fitsImm12 cw
  | .cwRd idx => fitsImm24 idx
  | .pbClr => true
  | .pbFill => true
  | .pbGetb i => fitsImm24 i
  | .pbSetb i => fitsImm24 i
  | .pbClrb i => fitsImm24 i
  | .pbAndi mask => fitsImm24 mask
  | .pbByte b => fitsImm24 b
  | .fbClr => true
  | .fbFill => true
  | .fbGetb i => fitsImm24 i
  | .fbSetb i => fitsImm24 i
  | .fbClrb i => fitsImm24 i
  | .fbByte b => fitsImm24 b
  | .gridInit => true
  | .pxSet x y => fitsImm12 x && fitsImm12 y
  | .pxClr x y => fitsImm12 x && fitsImm12 y
  | .pxGet x y => fitsImm12 x && fitsImm12 y
  | .gridRawb r => fitsImm24 r
  | .patLd c v => fitsImm12 c && fitsImm12 v
  | .patStart => true
  | .patStop => true
  | .indL row => fitsImm24 row
  | .indR row => fitsImm24 row
  | .drawBar row m => fitsImm12 row && fitsImm12 m
  | .drawSpc row m => fitsImm12 row && fitsImm12 m
  | .drawPb row slot => fitsImm12 row && fitsImm12 slot
  | .renderRow row => fitsImm24 row
  | .render => true

end Sys2Proof
end

