-- ==== Sys2Proof/Decode.lean ====
section
/-! DEFINITION. The decoder, total on every 32-bit word and rejecting by name (R84, R85), the encoder (R81, R86), and
the opcode map as match and mask rows (R87). -/

namespace Sys2Proof

/-- Why a word is an illegal command (R84, R85). -/
inductive Reject where
  /-- The opcode byte is in no row of R86. -/
  | reservedOpcode
  /-- A reserved bit of the row's format is set: `cmd[23:0]` of format N, `cmd[15:0]` of `RDREG`. -/
  | reservedBits
  deriving DecidableEq, Repr

/-- `v[hi:lo]`, the bit slice as an unsigned integer (R9). -/
def slice (w : Word) (hi lo : Nat) : Nat := w.toNat / 2 ^ lo % 2 ^ (hi + 1 - lo)

/-- `op = cmd[31:24]` (R80). -/
def opField (w : Word) : Nat := slice w 31 24

/-- `reg = cmd[23:16]` (R82). -/
def regField (w : Word) : Nat := slice w 23 16

/-- `imm16 = cmd[15:0]` (R82). -/
def imm16Field (w : Word) : Nat := slice w 15 0

/-- `imm24 = cmd[23:0]` (R82). -/
def imm24Field (w : Word) : Nat := slice w 23 0

/-- `a = cmd[23:12]` (R82). -/
def aField (w : Word) : Nat := slice w 23 12

/-- `b = cmd[11:0]` (R82). -/
def bField (w : Word) : Nat := slice w 11 0

/-- Format N: `cmd[23:0]` is reserved and must be 0 (R81, R85). -/
def formatN (w : Word) (i : Instr) : Except Reject Instr :=
  if imm24Field w = 0 then .ok i else .error .reservedBits

/-- `RDREG`: format RI with `imm16 = 0` (R85, R86). -/
def formatR (w : Word) (f : Nat → Instr) : Except Reject Instr :=
  if imm16Field w = 0 then .ok (f (regField w)) else .error .reservedBits

/-- Format RI (R81). -/
def formatRI (w : Word) (f : Nat → Nat → Instr) : Except Reject Instr := .ok (f (regField w) (imm16Field w))

/-- Format I (R81). -/
def formatI (w : Word) (f : Nat → Instr) : Except Reject Instr := .ok (f (imm24Field w))

/-- Format AB (R81). -/
def formatAB (w : Word) (f : Nat → Nat → Instr) : Except Reject Instr := .ok (f (aField w) (bField w))

/-- The decoder: the opcode byte selects the row of R86, the row's format the operands. -/
def decode (w : Word) : Except Reject Instr :=
  match opField w with
  | 0x00 => formatN w .nop
  | 0x01 => formatRI w .wrcfg
  | 0x02 => formatR w .rdreg
  | 0x03 => formatN w .begin_
  | 0x04 => formatN w .sreset
  | 0x10 => formatN w .eccStart
  | 0x11 => formatI w .eccPush
  | 0x12 => formatN w .eccRun
  | 0x13 => formatN w .eccFin
  | 0x14 => formatI w .eccRdacc
  | 0x15 => formatN w .eccChk
  | 0x20 => formatAB w .cwWr
  | 0x21 => formatI w .cwRd
  | 0x30 => formatN w .pbClr
  | 0x31 => formatN w .pbFill
  | 0x32 => formatI w .pbGetb
  | 0x33 => formatI w .pbSetb
  | 0x34 => formatI w .pbClrb
  | 0x35 => formatI w .pbAndi
  | 0x36 => formatI w .pbByte
  | 0x40 => formatN w .fbClr
  | 0x41 => formatN w .fbFill
  | 0x42 => formatI w .fbGetb
  | 0x43 => formatI w .fbSetb
  | 0x44 => formatI w .fbClrb
  | 0x46 => formatI w .fbByte
  | 0x50 => formatN w .gridInit
  | 0x51 => formatAB w .pxSet
  | 0x52 => formatAB w .pxClr
  | 0x53 => formatAB w .pxGet
  | 0x54 => formatI w .gridRawb
  | 0x60 => formatAB w .patLd
  | 0x61 => formatN w .patStart
  | 0x62 => formatN w .patStop
  | 0x63 => formatI w .indL
  | 0x64 => formatI w .indR
  | 0x65 => formatAB w .drawBar
  | 0x66 => formatAB w .drawSpc
  | 0x67 => formatAB w .drawPb
  | 0x68 => formatI w .renderRow
  | 0x69 => formatN w .render
  | _ => .error .reservedOpcode

/-- Formats N and I: the opcode byte above a 24-bit field (R81). -/
def wordI (op imm24 : Nat) : Word := BitVec.ofNat 32 (op * 2 ^ 24 + imm24)

/-- Format RI: the opcode byte, `reg`, `imm16` (R81). -/
def wordRI (op reg imm16 : Nat) : Word := BitVec.ofNat 32 (op * 2 ^ 24 + reg * 2 ^ 16 + imm16)

/-- Format AB: the opcode byte and two 12-bit fields (R81). -/
def wordAB (op a b : Nat) : Word := BitVec.ofNat 32 (op * 2 ^ 24 + a * 2 ^ 12 + b)

/-- The encoder: the command word of a well-formed command, from the formats and opcodes of R81 and R86. -/
def encode : Instr → Word
  | .nop => wordI 0x00 0
  | .wrcfg reg imm16 => wordRI 0x01 reg imm16
  | .rdreg reg => wordRI 0x02 reg 0
  | .begin_ => wordI 0x03 0
  | .sreset => wordI 0x04 0
  | .eccStart => wordI 0x10 0
  | .eccPush cw => wordI 0x11 cw
  | .eccRun => wordI 0x12 0
  | .eccFin => wordI 0x13 0
  | .eccRdacc j => wordI 0x14 j
  | .eccChk => wordI 0x15 0
  | .cwWr idx cw => wordAB 0x20 idx cw
  | .cwRd idx => wordI 0x21 idx
  | .pbClr => wordI 0x30 0
  | .pbFill => wordI 0x31 0
  | .pbGetb i => wordI 0x32 i
  | .pbSetb i => wordI 0x33 i
  | .pbClrb i => wordI 0x34 i
  | .pbAndi mask => wordI 0x35 mask
  | .pbByte b => wordI 0x36 b
  | .fbClr => wordI 0x40 0
  | .fbFill => wordI 0x41 0
  | .fbGetb i => wordI 0x42 i
  | .fbSetb i => wordI 0x43 i
  | .fbClrb i => wordI 0x44 i
  | .fbByte b => wordI 0x46 b
  | .gridInit => wordI 0x50 0
  | .pxSet x y => wordAB 0x51 x y
  | .pxClr x y => wordAB 0x52 x y
  | .pxGet x y => wordAB 0x53 x y
  | .gridRawb r => wordI 0x54 r
  | .patLd c v => wordAB 0x60 c v
  | .patStart => wordI 0x61 0
  | .patStop => wordI 0x62 0
  | .indL row => wordI 0x63 row
  | .indR row => wordI 0x64 row
  | .drawBar row m => wordAB 0x65 row m
  | .drawSpc row m => wordAB 0x66 row m
  | .drawPb row slot => wordAB 0x67 row slot
  | .renderRow row => wordI 0x68 row
  | .render => wordI 0x69 0

/-- One row of the opcode map as R87 gives it: a word `w` is the row's command when `w &&& mask = value`. -/
structure OpRow where
  mnemonic : String
  value : Word
  mask : Word
  deriving DecidableEq, Repr

/-- R87: `value = op << 24`, and the mask of the row's format. -/
def opRow (mnemonic : String) (op mask : Nat) : OpRow :=
  { mnemonic := mnemonic, value := BitVec.ofNat 32 (op * 2 ^ 24), mask := BitVec.ofNat 32 mask }

/-- A row of format N, whose mask is the whole word (R87). -/
def rowN (mnemonic : String) (op : Nat) : OpRow := opRow mnemonic op 0xFFFFFFFF

/-- A row of a format whose operands fill `cmd[23:0]` (R87). -/
def rowO (mnemonic : String) (op : Nat) : OpRow := opRow mnemonic op 0xFF000000

/-- The opcode map of R86 as match and mask rows (R87), in the table's order. -/
def opcodeRows : List OpRow :=
  [rowN "NOP" 0x00, rowO "WRCFG" 0x01, opRow "RDREG" 0x02 0xFF00FFFF, rowN "BEGIN" 0x03, rowN "SRESET" 0x04] ++
  [rowN "ECC.START" 0x10, rowO "ECC.PUSH" 0x11, rowN "ECC.RUN" 0x12, rowN "ECC.FIN" 0x13, rowO "ECC.RDACC" 0x14,
    rowN "ECC.CHK" 0x15, rowO "CW.WR" 0x20, rowO "CW.RD" 0x21] ++
  [rowN "PB.CLR" 0x30, rowN "PB.FILL" 0x31, rowO "PB.GETB" 0x32, rowO "PB.SETB" 0x33, rowO "PB.CLRB" 0x34,
    rowO "PB.ANDI" 0x35, rowO "PB.BYTE" 0x36] ++
  [rowN "FB.CLR" 0x40, rowN "FB.FILL" 0x41, rowO "FB.GETB" 0x42, rowO "FB.SETB" 0x43, rowO "FB.CLRB" 0x44,
    rowO "FB.BYTE" 0x46] ++
  [rowN "GRID.INIT" 0x50, rowO "PX.SET" 0x51, rowO "PX.CLR" 0x52, rowO "PX.GET" 0x53, rowO "GRID.RAWB" 0x54] ++
  [rowO "PAT.LD" 0x60, rowN "PAT.START" 0x61, rowN "PAT.STOP" 0x62, rowO "IND.L" 0x63, rowO "IND.R" 0x64] ++
  [rowO "DRAW.BAR" 0x65, rowO "DRAW.SPC" 0x66, rowO "DRAW.PB" 0x67, rowO "RENDER.ROW" 0x68, rowN "RENDER" 0x69]

/-- The mnemonic of a command (R86). -/
def Instr.mnemonic : Instr → String
  | .nop => "NOP"
  | .wrcfg _ _ => "WRCFG"
  | .rdreg _ => "RDREG"
  | .begin_ => "BEGIN"
  | .sreset => "SRESET"
  | .eccStart => "ECC.START"
  | .eccPush _ => "ECC.PUSH"
  | .eccRun => "ECC.RUN"
  | .eccFin => "ECC.FIN"
  | .eccRdacc _ => "ECC.RDACC"
  | .eccChk => "ECC.CHK"
  | .cwWr _ _ => "CW.WR"
  | .cwRd _ => "CW.RD"
  | .pbClr => "PB.CLR"
  | .pbFill => "PB.FILL"
  | .pbGetb _ => "PB.GETB"
  | .pbSetb _ => "PB.SETB"
  | .pbClrb _ => "PB.CLRB"
  | .pbAndi _ => "PB.ANDI"
  | .pbByte _ => "PB.BYTE"
  | .fbClr => "FB.CLR"
  | .fbFill => "FB.FILL"
  | .fbGetb _ => "FB.GETB"
  | .fbSetb _ => "FB.SETB"
  | .fbClrb _ => "FB.CLRB"
  | .fbByte _ => "FB.BYTE"
  | .gridInit => "GRID.INIT"
  | .pxSet _ _ => "PX.SET"
  | .pxClr _ _ => "PX.CLR"
  | .pxGet _ _ => "PX.GET"
  | .gridRawb _ => "GRID.RAWB"
  | .patLd _ _ => "PAT.LD"
  | .patStart => "PAT.START"
  | .patStop => "PAT.STOP"
  | .indL _ => "IND.L"
  | .indR _ => "IND.R"
  | .drawBar _ _ => "DRAW.BAR"
  | .drawSpc _ _ => "DRAW.SPC"
  | .drawPb _ _ => "DRAW.PB"
  | .renderRow _ => "RENDER.ROW"
  | .render => "RENDER"

/-- The instruction the decoder reads from the `nbits` low bits `w` of a command word, the bits above them 0. A command
is one 32-bit word with no byte structure (R80, R68), so the table's bit `n` is bit `n` of the word. -/
def decodeTableWord (nbits w : Nat) : Option Instr :=
  match decode (BitVec.ofNat 32 (w % 2 ^ nbits)) with
  | .ok i => some i
  | .error _ => none

end Sys2Proof
end

