-- ==== Sys2Proof/Machine/State.lean ====
section
/-! DEFINITION. The architectural state of one RSFR-929 instance (R20) and its value after reset (R42). -/

namespace Sys2Proof.Machine

/-- A memory: its entries by index, strictly rising, and no entry that equals what an unlisted index reads as. The
operations are in Machine/Memory.lean. -/
abbrev Memory (α : Type) := List (Nat × α)

/-- `CFG[0x00..0x06]`, seven 16-bit registers (R24). -/
structure CfgRegs where
  /-- `LEVEL`, 0x00 (R25). -/
  level : Half
  /-- `ROWS`, 0x01 (R26). -/
  rows : Half
  /-- `DCOLS`, 0x02 (R26). -/
  dcols : Half
  /-- `NDATA`, 0x03 (R28). -/
  ndata : Half
  /-- `MODW`, 0x04 (R27). -/
  modw : Half
  /-- `RHM`, 0x05 (R27). -/
  rhm : Half
  /-- `MARGIN`, 0x06 (R27). -/
  margin : Half
  deriving DecidableEq, Repr

/-- The settings snapshot `S` (R30); its fields have no stated width (assumption log 11). -/
structure Snapshot where
  level : Nat
  rows : Nat
  dcols : Nat
  ndata : Nat
  modw : Nat
  rhm : Nat
  margin : Nat
  /-- `S.K`, the number of correction codewords. -/
  k : Nat
  deriving DecidableEq, Repr

/-- The derived geometry (R31). -/
structure Geometry where
  /-- `SYM_COLS`, modules per row. -/
  symCols : Nat
  /-- `GRID_W`, logical width in pixels. -/
  gridW : Nat
  /-- `GRID_H`, logical height in pixels. -/
  gridH : Nat
  /-- `GRID_AW`, aligned width in pixels. -/
  gridAW : Nat
  /-- `FB_USED`, allocated frame words. -/
  fbUsed : Nat
  deriving DecidableEq, Repr

/-- `STATUS.ECC_PHASE` (R32, R33). -/
inductive EccPhase where
  | idle
  | absorb
  | done
  | checked
  deriving DecidableEq, Repr

/-- What `ERR` can hold: no fault, or one of the eight faults of the block (R290). These are faults the block itself
records and goes on from; they are next states of the model, never stops. -/
inductive ErrCode where
  /-- No fault since reset, `ERR` = 0. -/
  | noFault
  /-- A setting outside its range, or a geometry that does not add up; raised by `BEGIN` (R296). -/
  | invalidConfig
  /-- `NDATA + K > CW_CAP`; raised by `BEGIN` (R297). -/
  | capacityExceeded
  /-- The grid does not fit; raised by `BEGIN` (R298). -/
  | frameCapacity
  /-- The word is not a command; raised by the common gate (R299). -/
  | illegalCommand
  /-- A command in a state that gives it no meaning (R300). -/
  | sequence
  /-- A codeword operand above 928 (R301). -/
  | codewordRange
  /-- An index at or beyond the capacity it addresses (R302). -/
  | indexRange
  /-- A read of a codeword entry or of the pattern buffer that nothing has written in the session (R303). -/
  | uninitRead
  deriving DecidableEq, Repr

/-- What the outside world can do to the block, in the order it does it: the inputs the step takes. -/
inductive HostInput where
  /-- A command word transferred at the command port (R80). -/
  | command (w : Word)
  /-- `rst_n` asserted and released (R320; assumption log 8). -/
  | hardwareReset
  deriving DecidableEq, Repr

/-- The state: R20's list, the instance's parameters (R8) and what the host has presented. -/
structure State where
  /-- The parameters `COEFF`, `PAT`, `START_PATTERN`, `STOP_PATTERN`, `FB_WORDS`: constants no step writes (R250, R322;
  assumption log 1). -/
  inst : Config
  /-- `CFG[0x00..0x06]` (R24). -/
  cfg : CfgRegs
  /-- `S` (R30). -/
  snap : Snapshot
  /-- `SYM_COLS`, `GRID_W`, `GRID_H`, `GRID_AW`, `FB_USED` (R31). -/
  geom : Geometry
  /-- `STATUS.SESSION` (R32). -/
  session : Bool
  /-- `STATUS.ECC_PHASE` (R32, R33). -/
  eccPhase : EccPhase
  /-- `STATUS.GRID_VALID` (R32). -/
  gridValid : Bool
  /-- `STATUS.PB_VALID` (R32). -/
  pbValid : Bool
  /-- `STATUS.FAULTED` (R32), the level of `err_irq` (R304). -/
  faulted : Bool
  /-- `ERR` (R34). -/
  err : ErrCode
  /-- `ERRINFO` (R34). -/
  errInfo : Half
  /-- `ERRCMD` (R34). -/
  errCmd : Word
  /-- `ECC_COUNT` (R35). -/
  eccCount : Nat
  /-- `ACC[0..511]`; an unlisted slot reads 0 (R37; assumption log 5). -/
  acc : Memory Codeword
  /-- `CW[0..1023]`; an unlisted entry reads 0 (R38; assumption log 5). -/
  cw : Memory Codeword
  /-- `CWV[0..1023]`; an unlisted bit reads 0 (R38, R42). -/
  cwv : Memory Bool
  /-- `PB` (R39). -/
  pb : Word
  /-- `FB`, as byte lanes: entry `4 * w + l` is lane `l` of word `w`; an unlisted lane reads 0 (R39, R64; assumption
  logs 5, 6). -/
  fb : Memory Byte
  /-- `RSP`, every response word appended so far, oldest first (R40). -/
  rsp : List Word
  /-- What the host has presented and the block has not taken, oldest first (R22; assumption log 7). -/
  port : List HostInput
  deriving DecidableEq, Repr

/-- The machine stops of the model: none. Every illegal word, contract breach or wrong order is a fault the block itself
records and goes on from (R84, R292, R337), hence a next state; no meaning answers with a machine fault, which is safe
because nothing is hidden behind a stop. -/
inductive Fault where
  deriving DecidableEq, Repr

/-- Why a step has no meaning. -/
inductive Refusal where
  /-- Raised only by an arm of `exec` whose instruction has no meaning yet; no arm uses it. Safe: a refusal proves
  nothing about the hardware. -/
  | notModelled (mnemonic : String)
  deriving DecidableEq, Repr

/-- The configuration registers after reset: the source's defaults, `LEVEL` = 15 (`AUTO`) (R24, R42). -/
def CfgRegs.reset : CfgRegs :=
  { level := 15#16, rows := 0#16, dcols := 0#16, ndata := 0#16, modw := 4#16, rhm := 3#16, margin := 8#16 }

/-- The snapshot after reset (R30, R42). -/
def Snapshot.reset : Snapshot :=
  { level := 0, rows := 0, dcols := 0, ndata := 0, modw := 0, rhm := 0, margin := 0, k := 0 }

/-- The geometry after reset (R31, R42). -/
def Geometry.reset : Geometry := { symCols := 0, gridW := 0, gridH := 0, gridAW := 0, fbUsed := 0 }

/-- The block right after reset (R42, R320). The memories, whose contents R42 leaves unspecified, list nothing and so
read 0 (assumption log 5). -/
def State.reset : State :=
  { inst := Config.default, cfg := CfgRegs.reset, snap := Snapshot.reset, geom := Geometry.reset, session := false,
    eccPhase := .idle, gridValid := false, pbValid := false, faulted := false, err := .noFault, errInfo := 0#16,
    errCmd := 0#32, eccCount := 0, acc := [], cw := [], cwv := [], pb := 0#32, fb := [], rsp := [], port := [] }

end Sys2Proof.Machine
end

