-- ==== Sys2Proof/Machine/Memory.lean ====
section
/-! DEFINITION. The operations over a memory held as a list of entries in one canonical form. `d` is what an unlisted
index reads as. -/

namespace Sys2Proof.Machine

/-- The canonical form: indices strictly rising, no entry equal to what an unlisted index reads as. -/
abbrev Memory.wf {α : Type} (d : α) (m : Memory α) : Prop :=
  m.Pairwise (fun x y => x.1 < y.1) ∧ ∀ c ∈ m, c.2 ≠ d

/-- Every listed index is below `n`. -/
abbrev Memory.below {α : Type} (n : Nat) (m : Memory α) : Prop := ∀ c ∈ m, c.1 < n

/-- The entry at index `a`. -/
def Memory.read {α : Type} (d : α) : Memory α → Nat → α
  | [], _ => d
  | (k, x) :: m, a => if k = a then x else Memory.read d m a

/-- List the value `v` at index `a`, in order. -/
def Memory.insert {α : Type} : Memory α → Nat → α → Memory α
  | [], a, v => [(a, v)]
  | (k, x) :: m, a, v =>
    if k < a then (k, x) :: Memory.insert m a v
    else if k = a then (a, v) :: m
    else (a, v) :: (k, x) :: m

/-- Unlist index `a`. -/
def Memory.erase {α : Type} (m : Memory α) (a : Nat) : Memory α := m.filter fun c => c.1 ≠ a

/-- Write `v` at index `a`; writing what an unlisted index reads as unlists it. -/
def Memory.write {α : Type} [DecidableEq α] (d : α) (m : Memory α) (a : Nat) (v : α) : Memory α :=
  if v = d then m.erase a else m.insert a v

/-- Write the values `vs` at `base`, `base + 1`, and so on. -/
def Memory.writeList {α : Type} [DecidableEq α] (d : α) : Memory α → Nat → List α → Memory α
  | m, _, [] => m
  | m, base, v :: vs => Memory.writeList d (m.write d base v) (base + 1) vs

/-- Write `v` at every index below `n`. -/
def Memory.fill {α : Type} [DecidableEq α] (d : α) (m : Memory α) (n : Nat) (v : α) : Memory α :=
  (if v = d then [] else (List.range n).map fun a => (a, v)) ++ m.filter fun c => n ≤ c.1

end Sys2Proof.Machine
end

