-- ==== Sys2Proof/Machine/Operands.lean ====
section
/-! DEFINITION. What a command's own rule answers, and the tests on its operands, written as R11's template writes
them: a test, what is raised when it fails, and what follows when it passes (R82, R301, R302, R303). -/

namespace Sys2Proof.Machine

/-- The arguments of `raise <Fault>(info)` (R10, R291). -/
abbrev Raised := ErrCode × Nat

/-- What a command's own rule answers: the fault its first failing test raises, or the state its operation leaves
(R11). -/
abbrev RuleResult := Except Raised State

/-- `p` else `raise r` (R11). -/
def need (p : Prop) [Decidable p] (r : Raised) (k : RuleResult) : RuleResult := if p then k else .error r

/-- An index operand below the capacity it addresses, else `INDEX_RANGE(i)` (R302). -/
def needIndex (i capacity : Nat) (k : RuleResult) : RuleResult := need (i < capacity) (.indexRange, i) k

/-- A codeword operand at most 928, else `CODEWORD_RANGE(v)` (R301). -/
def needCodeword (v : Nat) (k : RuleResult) : RuleResult := need (v ≤ cwMax) (.codewordRange, v) k

/-- A codeword operand that passed its test, as the 10-bit value the memories hold. -/
def toCodeword (v : Nat) : Codeword := ⟨v % P, Nat.mod_lt v (by decide)⟩

/-- `CWV[i]` (R38). -/
def State.cwValid (s : State) (i : Nat) : Bool := s.cwv.read false i

/-- `CW[i]` (R38). -/
def State.cwAt (s : State) (i : Nat) : Codeword := s.cw.read 0 i

/-- `ACC[j]` (R37). -/
def State.accAt (s : State) (j : Nat) : Codeword := s.acc.read 0 j

/-- `COEFF[level][j]` (R125, R250). Outside the table, where no command reads, it is 0: assumption log 12. -/
def State.coeffAt (s : State) (level j : Nat) : Codeword := (s.inst.coeff.getD level []).getD j 0

/-- `PAT[c][v]` (R211, R250). Outside the table, where no command reads, it is 0: assumption log 12. -/
def State.patAt (s : State) (c v : Nat) : Pattern := (s.inst.pat.getD c []).getD v 0#17

/-- The lowest `i` in `lo .. lo + n - 1` with `CWV[i] = 0`, if there is one (R128, R131, R223, R224). -/
def State.firstInvalid (s : State) (lo n : Nat) : Option Nat := (List.range' lo n).find? fun i => !s.cwValid i

/-- Every entry in `lo .. lo + n - 1` valid, else `UNINIT_READ` of the lowest that is not (R303). -/
def needValid (s : State) (lo n : Nat) (k : RuleResult) : RuleResult :=
  match s.firstInvalid lo n with
  | some i => .error (.uninitRead, i)
  | none => k

end Sys2Proof.Machine
end

