-- ==== Sys2Proof/Machine/Flags.lean ====
section
/-! DEFINITION. The flags of `STATUS` (R32, R33), the codes of `ERR` (R290), the tests of a flag a command makes first
(R300, R303), and the register map that `WRCFG` and `RDREG` reach (R24, R30, R31, R34 to R36, R102). -/

namespace Sys2Proof.Machine

/-- The value of `STATUS[2:1]` (R32). -/
def EccPhase.code : EccPhase → Nat
  | .idle => 0
  | .absorb => 1
  | .done => 2
  | .checked => 3

/-- The value of `ERR` (R290). -/
def ErrCode.code : ErrCode → Nat
  | .noFault => 0
  | .invalidConfig => 1
  | .capacityExceeded => 2
  | .frameCapacity => 3
  | .illegalCommand => 4
  | .sequence => 5
  | .codewordRange => 6
  | .indexRange => 7
  | .uninitRead => 8

/-- `STATUS` (R32): `SESSION` in bit 0, `ECC_PHASE` in 2:1, `GRID_VALID` in 3, `PB_VALID` in 4, `FAULTED` in 5. -/
def State.status (s : State) : Word :=
  BitVec.ofNat 32 (s.session.toNat + s.eccPhase.code * 2 + s.gridValid.toNat * 8 + s.pbValid.toNat * 16 +
    s.faulted.toNat * 32)

/-- The error line, equal to `FAULTED` at all times (R304). -/
def State.errIrq (s : State) : Bool := s.faulted

/-- `ECC_PHASE = p`, else `SEQUENCE(0)` (R291, R300). -/
def needPhase (s : State) (p : EccPhase) (k : RuleResult) : RuleResult := need (s.eccPhase = p) (.sequence, 0) k

/-- `GRID_VALID = 1`, else `SEQUENCE(3)` (R160, R291). -/
def needGrid (s : State) (k : RuleResult) : RuleResult := need (s.gridValid = true) (.sequence, 3) k

/-- `PB_VALID = 1`, else `UNINIT_READ(0)` (R160, R291). -/
def needPb (s : State) (k : RuleResult) : RuleResult := need (s.pbValid = true) (.uninitRead, 0) k

/-- `CFG[r] <- v` for `r` in 0x00..0x06 (R24). -/
def CfgRegs.set (c : CfgRegs) (r : Nat) (v : Half) : CfgRegs :=
  match r with
  | 0x00 => { c with level := v }
  | 0x01 => { c with rows := v }
  | 0x02 => { c with dcols := v }
  | 0x03 => { c with ndata := v }
  | 0x04 => { c with modw := v }
  | 0x05 => { c with rhm := v }
  | 0x06 => { c with margin := v }
  | _ => c

/-- The value of register `r`, zero-extended to 32 bits; an unimplemented index reads 0 (R36, R102). -/
def State.register (s : State) (r : Nat) : Word :=
  match r with
  | 0x00 => s.cfg.level.setWidth 32
  | 0x01 => s.cfg.rows.setWidth 32
  | 0x02 => s.cfg.dcols.setWidth 32
  | 0x03 => s.cfg.ndata.setWidth 32
  | 0x04 => s.cfg.modw.setWidth 32
  | 0x05 => s.cfg.rhm.setWidth 32
  | 0x06 => s.cfg.margin.setWidth 32
  | 0x10 => BitVec.ofNat 32 s.snap.level
  | 0x11 => BitVec.ofNat 32 s.snap.rows
  | 0x12 => BitVec.ofNat 32 s.snap.dcols
  | 0x13 => BitVec.ofNat 32 s.snap.ndata
  | 0x14 => BitVec.ofNat 32 s.snap.modw
  | 0x15 => BitVec.ofNat 32 s.snap.rhm
  | 0x16 => BitVec.ofNat 32 s.snap.margin
  | 0x17 => BitVec.ofNat 32 s.snap.k
  | 0x18 => BitVec.ofNat 32 s.geom.symCols
  | 0x19 => BitVec.ofNat 32 s.geom.gridW
  | 0x1A => BitVec.ofNat 32 s.geom.gridH
  | 0x1B => BitVec.ofNat 32 s.geom.gridAW
  | 0x1C => BitVec.ofNat 32 s.geom.fbUsed
  | 0x20 => s.status
  | 0x21 => BitVec.ofNat 32 s.err.code
  | 0x22 => s.errInfo.setWidth 32
  | 0x23 => s.errCmd
  | 0x24 => BitVec.ofNat 32 s.eccCount
  | 0x2F => idValue
  | _ => 0#32

end Sys2Proof.Machine
end

