-- ==== Sys2Proof/Machine/Ops.lean ====
section
/-! DEFINITION. What every command shares: appending a response (R40), taking a fault (R292), reset (R320, R321) and
the common gate (R105). -/

namespace Sys2Proof.Machine

/-- What a step of this machine answers. -/
abbrev Outcome := Host.Outcome State Fault Refusal

/-- `respond(v)`: append one word to the response stream (R10, R40). -/
def State.respond (s : State) (v : Word) : State := { s with rsp := s.rsp ++ [v] }

/-- `respond(zext_32(v))` of a number (R10). -/
def State.respondNat (s : State) (v : Nat) : State := s.respond (BitVec.ofNat 32 v)

/-- `respond` of one bit (R163, R171, R193). -/
def State.respondBit (s : State) (b : Bool) : State := s.respondNat b.toNat

/-- Taking a fault (R292): `ERR <- code; ERRINFO <- info[15:0]; ERRCMD <- cmd; FAULTED <- 1`, and nothing else. There is
no other trap state, no vector and no return but `SRESET` (R295). -/
def State.raise (s : State) (r : Raised) (cmd : Word) : State :=
  { s with err := r.1, errInfo := BitVec.ofNat 16 r.2, errCmd := cmd, faulted := true }

/-- Reset, soft or hardware (R104, R320, R321): every piece of state takes its reset value. The parameters are constants
(R322), words already in `RSP` stay (R42), and what the host still presents is the host's. -/
def State.resetNow (s : State) : State := { State.reset with inst := s.inst, rsp := s.rsp, port := s.port }

/-- What the common gate asks of the state before a command's own rule runs (R86 column F, R105). -/
inductive Gate where
  /-- Runs even while `FAULTED`: `NOP`, `RDREG`, `SRESET`. -/
  | always
  /-- Dropped while `FAULTED`, needs no session: `WRCFG`, `BEGIN`. -/
  | unfaulted
  /-- Dropped while `FAULTED`, and faults `SEQUENCE(4)` without an open session: every other command. -/
  | session
  deriving DecidableEq, Repr

/-- The common gate (R105, steps 1, 3 and 4) around the own rule of command `i`. A legal word is the encoding of the one
command it decodes to (R84), so the word a fault records is `encode i` (assumption log 10). -/
def command (i : Instr) (g : Gate) (rule : State → RuleResult) (s : State) : Outcome :=
  if s.faulted = true ∧ g ≠ .always then .next s
  else if s.session = false ∧ g = .session then .next (s.raise (.sequence, 4) (encode i))
  else
    match rule s with
    | .ok t => .next t
    | .error r => .next (s.raise r (encode i))

/-- The common gate for a word that is no command (R105, steps 1 and 2; R84): dropped while `FAULTED`, else
`ILLEGAL_COMMAND(0)`. -/
def illegalCommand (w : Word) (s : State) : Outcome :=
  if s.faulted = true then .next s else .next (s.raise (.illegalCommand, 0) w)

/-- The next input the host has presented, and the state once the port has accepted it (R22, R72). -/
def State.takeInput (s : State) : Option (HostInput × State) :=
  match s.port with
  | [] => none
  | x :: rest => some (x, { s with port := rest })

end Sys2Proof.Machine
end

