-- ==== Sys2Proof/Machine/CwMem.lean ====
section
/-! DEFINITION. The codeword memory's commands `CW.WR` and `CW.RD` (spec/42_cwmem.md). -/

namespace Sys2Proof.Machine

/-- `CW.WR`: the codeword is tested before the index; `CW[idx] <- cw; CWV[idx] <- 1` (R150). -/
def cwWrRule (idx cw : Nat) (s : State) : RuleResult :=
  needCodeword cw <|
  needIndex idx (s.snap.ndata + s.snap.k) <|
  .ok { s with cw := s.cw.write 0 idx (toCodeword cw), cwv := s.cwv.write false idx true }

/-- `CW.WR idx, cw` (R150). -/
def execCwWr (idx cw : Nat) (s : State) : Outcome := command (.cwWr idx cw) .session (cwWrRule idx cw) s

/-- `CW.RD`: `respond(CW[idx])` of a valid entry (R151). -/
def cwRdRule (idx : Nat) (s : State) : RuleResult :=
  needIndex idx (s.snap.ndata + s.snap.k) <|
  need (s.cwValid idx = true) (.uninitRead, idx) <|
  .ok (s.respondNat (s.cwAt idx).val)

/-- `CW.RD idx` (R151). -/
def execCwRd (idx : Nat) (s : State) : Outcome := command (.cwRd idx) .session (cwRdRule idx) s

end Sys2Proof.Machine
end

