-- ==== Sys2Proof/Machine/Gf929.lean ====
section
/-! DEFINITION. The arithmetic of the corrector over the integers modulo 929 (R120 to R123) and its absorb step
(R124). -/

namespace Sys2Proof.Machine

/-- `mulmod(a, b)`: the exact product modulo 929 (R120). -/
def mulmod (a b : Codeword) : Codeword := toCodeword (a.val * b.val)

/-- `addmod(a, b)`: the exact sum modulo 929 (R121). -/
def addmod (a b : Codeword) : Codeword := toCodeword (a.val + b.val)

/-- `negmod(a)`: 0 when `a = 0`, else `929 - a` (R122). -/
def negmod (a : Codeword) : Codeword := if a.val = 0 then 0 else toCodeword (P - a.val)

/-- The absorb step (R124): with `t = addmod(cw, A[k-1])`, slot 0 becomes `negmod(mulmod(t, C[0]))` and slot `j` becomes
`addmod(A[j-1], negmod(mulmod(t, C[j])))`, all from the old array `A`. -/
def absorb (A : List Codeword) (cw : Codeword) (C : List Codeword) : List Codeword :=
  let t := addmod cw (A.getLastD 0)
  match C with
  | [] => []
  | c :: cs => negmod (mulmod t c) :: List.zipWith (fun prev cj => addmod prev (negmod (mulmod t cj))) A cs

/-- `absorb` of each codeword in turn (R128, R131). -/
def absorbAll (A : List Codeword) (cws : List Codeword) (C : List Codeword) : List Codeword :=
  cws.foldl (fun A cw => absorb A cw C) A

end Sys2Proof.Machine
end

