-- ==== Sys2Proof/Machine/Ecc.lean ====
section
/-! DEFINITION. The corrector's commands `ECC.START`, `ECC.PUSH`, `ECC.RUN`, `ECC.FIN`, `ECC.RDACC`, `ECC.CHK`
(spec/41_ecc.md). -/

namespace Sys2Proof.Machine

/-- `ACC[0..S.K-1]` (R37). -/
def State.accSlots (s : State) : List Codeword := (List.range s.snap.k).map s.accAt

/-- `COEFF[S.LEVEL][0..S.K-1]` (R125). -/
def State.coeffs (s : State) : List Codeword := (List.range s.snap.k).map (s.coeffAt s.snap.level)

/-- `CW[lo .. lo + n - 1]` (R38). -/
def State.cwRange (s : State) (lo n : Nat) : List Codeword := (List.range' lo n).map s.cwAt

/-- Write `ACC[0..]` from a list of slot values (R37). -/
def State.setAcc (s : State) (A : List Codeword) : State := { s with acc := s.acc.writeList 0 0 A }

/-- Write `CW[lo..]` from a list of codewords and set their valid bits (R38). -/
def State.storeCws (s : State) (lo : Nat) (vs : List Codeword) : State :=
  { s with cw := s.cw.writeList 0 lo vs, cwv := s.cwv.writeList false lo (vs.map fun _ => true) }

/-- `ECC.START` (R126). -/
def eccStartRule (s : State) : RuleResult :=
  .ok { s with acc := s.acc.fill 0 s.snap.k 0, eccCount := 0, eccPhase := .absorb }

/-- `ECC.START` (R126). -/
def execEccStart (s : State) : Outcome := command .eccStart .session eccStartRule s

/-- `ECC.PUSH` (R127). -/
def eccPushRule (cw : Nat) (s : State) : RuleResult :=
  needPhase s .absorb <|
  need (s.eccCount < s.snap.ndata) (.sequence, 1) <|
  needCodeword cw <|
  .ok { (s.storeCws s.eccCount [toCodeword cw]).setAcc (absorb s.accSlots (toCodeword cw) s.coeffs) with
        eccCount := s.eccCount + 1 }

/-- `ECC.PUSH cw` (R127). -/
def execEccPush (cw : Nat) (s : State) : Outcome := command (.eccPush cw) .session (eccPushRule cw) s

/-- `ECC.RUN` (R128). -/
def eccRunRule (s : State) : RuleResult :=
  needPhase s .absorb <|
  needValid s s.eccCount (s.snap.ndata - s.eccCount) <|
  .ok { s.setAcc (absorbAll s.accSlots (s.cwRange s.eccCount (s.snap.ndata - s.eccCount)) s.coeffs) with
        eccCount := s.snap.ndata }

/-- `ECC.RUN` (R128). -/
def execEccRun (s : State) : Outcome := command .eccRun .session eccRunRule s

/-- `ECC.FIN` (R129): one negation of every slot, and the correction codewords in reverse accumulator order. -/
def eccFinRule (s : State) : RuleResult :=
  needPhase s .absorb <|
  need (s.eccCount = s.snap.ndata) (.sequence, 2) <|
  .ok { (s.setAcc (s.accSlots.map negmod)).storeCws s.snap.ndata (s.accSlots.map negmod).reverse with
        eccPhase := .done }

/-- `ECC.FIN` (R129). -/
def execEccFin (s : State) : Outcome := command .eccFin .session eccFinRule s

/-- `ECC.RDACC` (R130). -/
def eccRdaccRule (j : Nat) (s : State) : RuleResult :=
  need (s.eccPhase ≠ .idle) (.sequence, 0) <|
  needIndex j s.snap.k <|
  .ok (s.respondNat (s.accAt j).val)

/-- `ECC.RDACC j` (R130). -/
def execEccRdacc (j : Nat) (s : State) : Outcome := command (.eccRdacc j) .session (eccRdaccRule j) s

/-- The remainder of data and correction codewords together, from an all-zero accumulator, with no negation (R131). -/
def State.residue (s : State) : List Codeword :=
  absorbAll (List.replicate s.snap.k 0) (s.cwRange 0 (s.snap.ndata + s.snap.k)) s.coeffs

/-- `ECC.CHK` (R131). -/
def eccChkRule (s : State) : RuleResult :=
  needPhase s .done <|
  needValid s 0 (s.snap.ndata + s.snap.k) <|
  .ok ({ s.setAcc s.residue with eccPhase := .checked }.respondBit (s.residue.all (· == 0)))

/-- `ECC.CHK` (R131). -/
def execEccChk (s : State) : Outcome := command .eccChk .session eccChkRule s

end Sys2Proof.Machine
end

