-- ==== Sys2Proof/Machine/BitBuffer.lean ====
section
/-! DEFINITION. Packed bit buffers (R61 to R64): bit placement, byte extraction with bit-order reversal, the loading of
a pattern (R210), and the bits and words of the frame memory. -/

namespace Sys2Proof.Machine

/-- `bit(buf, i) <- b` inside one storage cell: `(x & ~(1 << i)) | (b << i)` (R62). -/
def putBit {w : Nat} (x : BitVec w) (i : Nat) (b : Bool) : BitVec w :=
  (x &&& ~~~(1#w <<< i)) ||| (BitVec.ofNat w b.toNat <<< i)

/-- `byte(buf, b)`: the sum over `t` in 0..7 of `bit(buf, 8*b + t) << (7 - t)` (R64). -/
def extractByte (bit : Nat → Bool) (b : Nat) : Nat :=
  (List.range 8).foldl (fun acc t => acc + (bit (8 * b + t)).toNat <<< (7 - t)) 0

/-- `module(p, m)`: module `m` of a pattern, bit `16 - m` (R210). -/
def moduleBit (p : Pattern) (m : Nat) : Bool := p.getLsbD (16 - m)

/-- `load(p)`: module `m` in bit `m`, bits 17..31 zero (R210). -/
def loadPattern (p : Pattern) : Word :=
  BitVec.ofNat 32 ((List.range patternModules).foldl (fun acc m => acc + (moduleBit p m).toNat <<< m) 0)

/-- `bit(FB, i)`: bit `i mod 32` of word `i div 32`, that is bit `i mod 8` of lane `i div 8` (R62, R64; assumption log
6). -/
def fbBit (fb : Memory Byte) (i : Nat) : Bool := (fb.read 0#8 (i / 8)).getLsbD (i % 8)

/-- `bit(FB, i) <- b` (R62). -/
def fbSetBit (fb : Memory Byte) (i : Nat) (b : Bool) : Memory Byte :=
  fb.write 0#8 (i / 8) (putBit (fb.read 0#8 (i / 8)) (i % 8) b)

/-- `bit(FB, i) <- b` for every `i` of a list. -/
def fbSetBits (fb : Memory Byte) (is : List Nat) (b : Bool) : Memory Byte := is.foldl (fun fb i => fbSetBit fb i b) fb

/-- `for w in 0 .. used-1: FB[w] <- v` where all four lanes of `v` are `lane` (R169, R170, R190). -/
def fbFillWords (fb : Memory Byte) (used : Nat) (lane : Byte) : Memory Byte := fb.fill 0#8 (4 * used) lane

/-- `FB[w]`, the 32-bit storage word: lane `l` in bits `8l+7 : 8l` (R62, R64, R68). -/
def fbWord (fb : Memory Byte) (w : Nat) : Word :=
  fb.read 0#8 (4 * w + 3) ++ fb.read 0#8 (4 * w + 2) ++ fb.read 0#8 (4 * w + 1) ++ fb.read 0#8 (4 * w)

end Sys2Proof.Machine
end

