-- ==== Sys2Proof/Machine/FrameBuffer.lean ====
section
/-! DEFINITION. The frame buffer's commands `FB.*` (spec/43_bitbuffer.md, R160, R169 to R174). -/

namespace Sys2Proof.Machine

/-- `GRID_AW * GRID_H`, the number of allocated bits of `FB` (R39, R61). -/
def State.fbBits (s : State) : Nat := s.geom.gridAW * s.geom.gridH

/-- `for w in 0 .. FB_USED-1: FB[w] <- v`, all four lanes of `v` being `lane` (R169, R170, R190). -/
def State.fillFb (s : State) (lane : Byte) : State := { s with fb := fbFillWords s.fb s.geom.fbUsed lane }

/-- `bit(FB, i) <- b` (R172, R173, R191, R192). -/
def State.putFbBit (s : State) (i : Nat) (b : Bool) : State := { s with fb := fbSetBit s.fb i b }

/-- `FB.CLR` (R169). -/
def execFbClr (s : State) : Outcome := command .fbClr .session (fun s => needGrid s <| .ok (s.fillFb 0x00#8)) s

/-- `FB.FILL` (R170). -/
def execFbFill (s : State) : Outcome := command .fbFill .session (fun s => needGrid s <| .ok (s.fillFb 0xFF#8)) s

/-- `FB.GETB` (R171). -/
def fbGetbRule (i : Nat) (s : State) : RuleResult :=
  needGrid s <| needIndex i s.fbBits <| .ok (s.respondBit (fbBit s.fb i))

/-- `FB.GETB i` (R171). -/
def execFbGetb (i : Nat) (s : State) : Outcome := command (.fbGetb i) .session (fbGetbRule i) s

/-- `bit(FB, i) <- b` (R172, R173). -/
def fbPutRule (i : Nat) (b : Bool) (s : State) : RuleResult :=
  needGrid s <| needIndex i s.fbBits <| .ok (s.putFbBit i b)

/-- `FB.SETB i` (R172). -/
def execFbSetb (i : Nat) (s : State) : Outcome := command (.fbSetb i) .session (fbPutRule i true) s

/-- `FB.CLRB i` (R173). -/
def execFbClrb (i : Nat) (s : State) : Outcome := command (.fbClrb i) .session (fbPutRule i false) s

/-- `FB.BYTE` (R174). -/
def fbByteRule (b : Nat) (s : State) : RuleResult :=
  needGrid s <| needIndex b (s.fbBits / 8) <| .ok (s.respondNat (extractByte (fbBit s.fb) b))

/-- `FB.BYTE b` (R174). -/
def execFbByte (b : Nat) (s : State) : Outcome := command (.fbByte b) .session (fbByteRule b) s

end Sys2Proof.Machine
end

