-- ==== Sys2Proof/Machine/PatternBuffer.lean ====
section
/-! DEFINITION. The pattern buffer's commands `PB.*` (spec/43_bitbuffer.md, R160 to R168). -/

namespace Sys2Proof.Machine

/-- `PB <- v; PB_VALID <- 1` (R161, R162, R211 to R213). -/
def State.setPb (s : State) (v : Word) : State := { s with pb := v, pbValid := true }

/-- `PB.CLR` (R161). -/
def execPbClr (s : State) : Outcome := command .pbClr .session (fun s => .ok (s.setPb 0x00000000#32)) s

/-- `PB.FILL` (R162). -/
def execPbFill (s : State) : Outcome := command .pbFill .session (fun s => .ok (s.setPb 0xFFFFFFFF#32)) s

/-- `PB.GETB` (R163). -/
def pbGetbRule (i : Nat) (s : State) : RuleResult :=
  needPb s <| needIndex i 32 <| .ok (s.respondBit (s.pb.getLsbD i))

/-- `PB.GETB i` (R163). -/
def execPbGetb (i : Nat) (s : State) : Outcome := command (.pbGetb i) .session (pbGetbRule i) s

/-- `bit(PB, i) <- b` (R164, R165). -/
def pbPutRule (i : Nat) (b : Bool) (s : State) : RuleResult :=
  needPb s <| needIndex i 32 <| .ok { s with pb := putBit s.pb i b }

/-- `PB.SETB i` (R164). -/
def execPbSetb (i : Nat) (s : State) : Outcome := command (.pbSetb i) .session (pbPutRule i true) s

/-- `PB.CLRB i` (R165). -/
def execPbClrb (i : Nat) (s : State) : Outcome := command (.pbClrb i) .session (pbPutRule i false) s

/-- `PB.ANDI`: `PB <- PB & zext_32(mask)` (R166). -/
def pbAndiRule (mask : Nat) (s : State) : RuleResult :=
  needPb s <| .ok { s with pb := s.pb &&& BitVec.ofNat 32 mask }

/-- `PB.ANDI mask` (R166). -/
def execPbAndi (mask : Nat) (s : State) : Outcome := command (.pbAndi mask) .session (pbAndiRule mask) s

/-- `PB.BYTE` (R168). -/
def pbByteRule (b : Nat) (s : State) : RuleResult :=
  needPb s <| needIndex b 4 <| .ok (s.respondNat (extractByte s.pb.getLsbD b))

/-- `PB.BYTE b` (R168). -/
def execPbByte (b : Nat) (s : State) : Outcome := command (.pbByte b) .session (pbByteRule b) s

end Sys2Proof.Machine
end

