-- ==== Sys2Proof/Machine/Patterns.lean ====
section
/-! DEFINITION. Pattern lookup and row indicators: `PAT.LD`, `PAT.START`, `PAT.STOP`, `IND.L`, `IND.R`
(spec/45_render.md, sections 1 and 2). -/

namespace Sys2Proof.Machine

/-- `PAT.LD`: the cluster is tested before the codeword; `PB <- load(PAT[c][v])` (R211). -/
def patLdRule (c v : Nat) (s : State) : RuleResult :=
  need (c ≤ 2) (.indexRange, c) <| needCodeword v <| .ok (s.setPb (loadPattern (s.patAt c v)))

/-- `PAT.LD c, v` (R211). -/
def execPatLd (c v : Nat) (s : State) : Outcome := command (.patLd c v) .session (patLdRule c v) s

/-- `PAT.START` (R212). -/
def execPatStart (s : State) : Outcome :=
  command .patStart .session (fun s => .ok (s.setPb (loadPattern s.inst.startPattern))) s

/-- `PAT.STOP` (R213). -/
def execPatStop (s : State) : Outcome :=
  command .patStop .session (fun s => .ok (s.setPb (loadPattern s.inst.stopPattern))) s

/-- `x1 = (rows - 1) div 3` (R214). -/
def Snapshot.x1 (S : Snapshot) : Nat := (S.rows - 1) / 3

/-- `x2 = level * 3 + (rows - 1) mod 3` (R214). -/
def Snapshot.x2 (S : Snapshot) : Nat := S.level * 3 + (S.rows - 1) % 3

/-- `x3 = dataColumns - 1` (R214). -/
def Snapshot.x3 (S : Snapshot) : Nat := S.dcols - 1

/-- `left(i)` (R214). -/
def Snapshot.left (S : Snapshot) (i : Nat) : Nat :=
  i / 3 * 30 + if i % 3 = 0 then S.x1 else if i % 3 = 1 then S.x2 else S.x3

/-- `right(i)` (R214). -/
def Snapshot.right (S : Snapshot) (i : Nat) : Nat :=
  i / 3 * 30 + if i % 3 = 0 then S.x3 else if i % 3 = 1 then S.x1 else S.x2

/-- `IND.L` (R216). -/
def indLRule (row : Nat) (s : State) : RuleResult :=
  needIndex row s.snap.rows <| .ok (s.respondNat (s.snap.left row))

/-- `IND.L row` (R216). -/
def execIndL (row : Nat) (s : State) : Outcome := command (.indL row) .session (indLRule row) s

/-- `IND.R` (R217). -/
def indRRule (row : Nat) (s : State) : RuleResult :=
  needIndex row s.snap.rows <| .ok (s.respondNat (s.snap.right row))

/-- `IND.R row` (R217). -/
def execIndR (row : Nat) (s : State) : Outcome := command (.indR row) .session (indRRule row) s

end Sys2Proof.Machine
end

