-- ==== Sys2Proof/Machine/PixelGrid.lean ====
section
/-! DEFINITION. The pixel grid's commands `GRID.INIT`, `PX.SET`, `PX.CLR`, `PX.GET`, `GRID.RAWB`
(spec/44_pixelgrid.md). -/

namespace Sys2Proof.Machine

/-- The bit of pixel (x, y) (R65). -/
def State.pixelBit (s : State) (x y : Nat) : Nat := y * s.geom.gridAW + x

/-- `GRID.INIT`: every allocated word cleared, `GRID_VALID <- 1` (R190). -/
def gridInitRule (s : State) : RuleResult := .ok { s.fillFb 0x00#8 with gridValid := true }

/-- `GRID.INIT` (R190). -/
def execGridInit (s : State) : Outcome := command .gridInit .session gridInitRule s

/-- The tests of the pixel commands (R191). -/
def needPixel (s : State) (x y : Nat) (k : RuleResult) : RuleResult :=
  needGrid s <| needIndex x s.geom.gridW <| needIndex y s.geom.gridH k

/-- `PX.SET` (R191). -/
def pxSetRule (x y : Nat) (s : State) : RuleResult := needPixel s x y <| .ok (s.putFbBit (s.pixelBit x y) true)

/-- `PX.SET x, y` (R191). -/
def execPxSet (x y : Nat) (s : State) : Outcome := command (.pxSet x y) .session (pxSetRule x y) s

/-- `PX.CLR` (R192). -/
def pxClrRule (x y : Nat) (s : State) : RuleResult := needPixel s x y <| .ok (s.putFbBit (s.pixelBit x y) false)

/-- `PX.CLR x, y` (R192). -/
def execPxClr (x y : Nat) (s : State) : Outcome := command (.pxClr x y) .session (pxClrRule x y) s

/-- `PX.GET` (R193). -/
def pxGetRule (x y : Nat) (s : State) : RuleResult :=
  needPixel s x y <| .ok (s.respondBit (fbBit s.fb (s.pixelBit x y)))

/-- `PX.GET x, y` (R193). -/
def execPxGet (x y : Nat) (s : State) : Outcome := command (.pxGet x y) .session (pxGetRule x y) s

/-- `raw(r)`: the byte of `FB` that raw byte `r` is, bottom pixel row first (R67, R194). -/
def State.rawByteIndex (s : State) (r : Nat) : Nat :=
  (s.geom.gridH - 1 - r / (s.geom.gridAW / 8)) * (s.geom.gridAW / 8) + r % (s.geom.gridAW / 8)

/-- `GRID.RAWB` (R194). -/
def gridRawbRule (r : Nat) (s : State) : RuleResult :=
  needGrid s <| needIndex r (s.geom.gridH * s.geom.gridAW / 8) <|
  .ok (s.respondNat (extractByte (fbBit s.fb) (s.rawByteIndex r)))

/-- `GRID.RAWB r` (R194). -/
def execGridRawb (r : Nat) (s : State) : Outcome := command (.gridRawb r) .session (gridRawbRule r) s

end Sys2Proof.Machine
end

