-- ==== Sys2Proof/Machine/Render.lean ====
section
/-! DEFINITION. Drawing and rendering: `DRAW.BAR`, `DRAW.SPC`, `DRAW.PB`, `RENDER.ROW`, `RENDER` (spec/45_render.md,
section 3). -/

namespace Sys2Proof.Machine

/-- The bits of `FB` that `drawmodule(row, m, ·)` writes, in the order it writes them (R218). -/
def State.moduleBits (s : State) (row m : Nat) : List Nat :=
  (List.range (s.snap.modw * s.snap.rhm)).flatMap fun dy =>
    (List.range s.snap.modw).map fun dx =>
      (s.snap.margin + row * s.snap.modw * s.snap.rhm + dy) * s.geom.gridAW + (s.snap.margin + m * s.snap.modw + dx)

/-- `drawmodule(row, m, v)` on a frame memory (R218). -/
def State.drawModule (s : State) (row m : Nat) (v : Bool) (fb : Memory Byte) : Memory Byte :=
  fbSetBits fb (s.moduleBits row m) v

/-- `for m in 0 .. 16: drawmodule(row, slot * 17 + m, bit(pb, m))` (R221). -/
def State.drawPattern (s : State) (row slot : Nat) (pb : Word) (fb : Memory Byte) : Memory Byte :=
  (List.range patternModules).foldl
    (fun fb m => s.drawModule row (slot * patternModules + m) (pb.getLsbD m) fb) fb

/-- The tests of `DRAW.BAR` and `DRAW.SPC` (R219). -/
def needModule (s : State) (row m : Nat) (k : RuleResult) : RuleResult :=
  needGrid s <| needIndex row s.snap.rows <| needIndex m s.geom.symCols k

/-- `DRAW.BAR` (R219). -/
def drawBarRule (row m : Nat) (s : State) : RuleResult :=
  needModule s row m <| .ok { s with fb := s.drawModule row m true s.fb }

/-- `DRAW.BAR row, m` (R219). -/
def execDrawBar (row m : Nat) (s : State) : Outcome := command (.drawBar row m) .session (drawBarRule row m) s

/-- `DRAW.SPC` (R220). -/
def drawSpcRule (row m : Nat) (s : State) : RuleResult :=
  needModule s row m <| .ok { s with fb := s.drawModule row m false s.fb }

/-- `DRAW.SPC row, m` (R220). -/
def execDrawSpc (row m : Nat) (s : State) : Outcome := command (.drawSpc row m) .session (drawSpcRule row m) s

/-- `DRAW.PB`: `PB_VALID` is tested before the indices (R221). -/
def drawPbRule (row slot : Nat) (s : State) : RuleResult :=
  needGrid s <| needPb s <| needIndex row s.snap.rows <| needIndex slot (s.snap.dcols + 4) <|
  .ok { s with fb := s.drawPattern row slot s.pb s.fb }

/-- `DRAW.PB row, slot` (R221). -/
def execDrawPb (row slot : Nat) (s : State) : Outcome := command (.drawPb row slot) .session (drawPbRule row slot) s

/-- The patterns of symbol row `row`, slot by slot: start, left indicator, the row's codewords, right indicator, stop;
all but start and stop from cluster `row mod 3` (R222, R225). -/
def State.rowPatterns (s : State) (row : Nat) : List Pattern :=
  s.inst.startPattern :: s.patAt (row % 3) (s.snap.left row) ::
    ((List.range s.snap.dcols).map fun c => s.patAt (row % 3) (s.cwAt (row * s.snap.dcols + c)).val) ++
    [s.patAt (row % 3) (s.snap.right row), s.inst.stopPattern]

/-- `drawpat` of each slot of a row, then the trailing set module (R223). -/
def State.drawRow (s : State) (row : Nat) (fb : Memory Byte) : Memory Byte :=
  s.drawModule row (s.geom.symCols - 1) true
    ((s.rowPatterns row).zipIdx.foldl (fun fb p => s.drawPattern row p.2 (loadPattern p.1) fb) fb)

/-- What a render leaves beside the pixels: `PB` holding the stop pattern it loaded last, and `PB_VALID` (R223, R333). -/
def State.rendered (s : State) (fb : Memory Byte) : State :=
  { s with fb := fb, pb := loadPattern s.inst.stopPattern, pbValid := true }

/-- `RENDER.ROW`: every test comes before the first pixel (R223). -/
def renderRowRule (row : Nat) (s : State) : RuleResult :=
  needGrid s <| needIndex row s.snap.rows <| needValid s (row * s.snap.dcols) s.snap.dcols <|
  .ok (s.rendered (s.drawRow row s.fb))

/-- `RENDER.ROW row` (R223). -/
def execRenderRow (row : Nat) (s : State) : Outcome := command (.renderRow row) .session (renderRowRule row) s

/-- `RENDER`: every row in ascending order, after testing every codeword (R224). -/
def renderRule (s : State) : RuleResult :=
  needGrid s <| needValid s 0 (s.snap.rows * s.snap.dcols) <|
  .ok (s.rendered ((List.range s.snap.rows).foldl (fun fb row => s.drawRow row fb) s.fb))

/-- `RENDER` (R224). -/
def execRender (s : State) : Outcome := command .render .session renderRule s

end Sys2Proof.Machine
end

