-- ==== Sys2Proof/Machine/System.lean ====
section
/-! DEFINITION. The system commands `NOP`, `WRCFG`, `RDREG`, `BEGIN`, `SRESET` (spec/40_system.md). -/

namespace Sys2Proof.Machine

/-- `NOP`: nothing (R100). -/
def execNop (s : State) : Outcome := command .nop .always .ok s

/-- `WRCFG`: the register must be in 0x00..0x06, else `INDEX_RANGE(reg)`; `CFG[reg] <- imm16` (R101). -/
def wrcfgRule (reg imm16 : Nat) (s : State) : RuleResult :=
  needIndex reg 0x07 <| .ok { s with cfg := s.cfg.set reg (BitVec.ofNat 16 imm16) }

/-- `WRCFG reg, imm16` (R101). -/
def execWrcfg (reg imm16 : Nat) (s : State) : Outcome :=
  command (.wrcfg reg imm16) .unfaulted (wrcfgRule reg imm16) s

/-- `RDREG reg`: `respond(value of register reg)`, 0 if it is unimplemented (R102). -/
def execRdreg (reg : Nat) (s : State) : Outcome :=
  command (.rdreg reg) .always (fun s => .ok (s.respond (s.register reg))) s

/-- The snapshot `BEGIN` takes of the configuration registers (R30, R103). -/
def Snapshot.ofCfg (c : CfgRegs) : Snapshot :=
  { level := c.level.toNat, rows := c.rows.toNat, dcols := c.dcols.toNat, ndata := c.ndata.toNat,
    modw := c.modw.toNat, rhm := c.rhm.toNat, margin := c.margin.toNat, k := correctionCount c.level.toNat }

/-- `SYM_COLS` (R31). -/
def Snapshot.symCols (S : Snapshot) : Nat := (S.dcols + 4) * 17 + 1

/-- `GRID_W` (R31). -/
def Snapshot.gridW (S : Snapshot) : Nat := S.symCols * S.modw + 2 * S.margin

/-- `GRID_H` (R31). -/
def Snapshot.gridH (S : Snapshot) : Nat := S.rows * S.modw * S.rhm + 2 * S.margin

/-- `GRID_AW`, the width rounded up to a 32-bit boundary (R31). -/
def Snapshot.gridAW (S : Snapshot) : Nat := ((S.gridW + 31) >>> 5) <<< 5

/-- The derived geometry of a snapshot (R31). -/
def Geometry.ofSnapshot (S : Snapshot) : Geometry :=
  { symCols := S.symCols, gridW := S.gridW, gridH := S.gridH, gridAW := S.gridAW, fbUsed := S.gridAW * S.gridH / 32 }

/-- The ten tests of `BEGIN`, in order (R103). -/
def checkSettings (S : Snapshot) (fbWords : Nat) (k : RuleResult) : RuleResult :=
  need (S.level ≤ levelMax) (.invalidConfig, 0x00) <|
  need (1 ≤ S.rows ∧ S.rows ≤ rowsMax) (.invalidConfig, 0x01) <|
  need (1 ≤ S.dcols ∧ S.dcols ≤ dcolsMax) (.invalidConfig, 0x02) <|
  need (1 ≤ S.ndata) (.invalidConfig, 0x03) <|
  need (1 ≤ S.modw ∧ S.modw ≤ 255) (.invalidConfig, 0x04) <|
  need (1 ≤ S.rhm ∧ S.rhm ≤ 255) (.invalidConfig, 0x05) <|
  need (S.margin ≤ 4095) (.invalidConfig, 0x06) <|
  need (S.ndata + S.k ≤ cwCap) (.capacityExceeded, 0) <|
  need (S.ndata + S.k = S.rows * S.dcols) (.invalidConfig, 0x08) <|
  need (S.gridW ≤ coordMax ∧ S.gridH ≤ coordMax ∧ S.gridAW * S.gridH / 32 ≤ fbWords) (.frameCapacity, 0) k

/-- The operation of `BEGIN`: snapshot, geometry, an open session with nothing valid in it (R103). -/
def State.openSession (s : State) (S : Snapshot) : State :=
  { s with snap := S, geom := Geometry.ofSnapshot S, session := true, eccPhase := .idle, eccCount := 0,
           gridValid := false, pbValid := false, cwv := [] }

/-- `BEGIN` (R103). -/
def beginRule (s : State) : RuleResult :=
  checkSettings (Snapshot.ofCfg s.cfg) s.inst.fbWords <| .ok (s.openSession (Snapshot.ofCfg s.cfg))

/-- `BEGIN` (R103). -/
def execBegin (s : State) : Outcome := command .begin_ .unfaulted beginRule s

/-- `SRESET`: every piece of state takes its reset value (R104, R321). -/
def execSreset (s : State) : Outcome := command .sreset .always (fun s => .ok s.resetNow) s

end Sys2Proof.Machine
end

