-- ==== Sys2Proof/Machine/Dispatch.lean ====
section
/-! DEFINITION. The meaning of every command (R86), one direct call per constructor. -/

namespace Sys2Proof.Machine

def exec (i : Instr) (s : State) : Host.Outcome State Fault Refusal :=
  match i with
  | .nop => Sys2Proof.Machine.execNop s
  | .wrcfg reg imm16 => Sys2Proof.Machine.execWrcfg reg imm16 s
  | .rdreg reg => Sys2Proof.Machine.execRdreg reg s
  | .begin_ => Sys2Proof.Machine.execBegin s
  | .sreset => Sys2Proof.Machine.execSreset s
  | .eccStart => Sys2Proof.Machine.execEccStart s
  | .eccPush cw => Sys2Proof.Machine.execEccPush cw s
  | .eccRun => Sys2Proof.Machine.execEccRun s
  | .eccFin => Sys2Proof.Machine.execEccFin s
  | .eccRdacc j => Sys2Proof.Machine.execEccRdacc j s
  | .eccChk => Sys2Proof.Machine.execEccChk s
  | .cwWr idx cw => Sys2Proof.Machine.execCwWr idx cw s
  | .cwRd idx => Sys2Proof.Machine.execCwRd idx s
  | .pbClr => Sys2Proof.Machine.execPbClr s
  | .pbFill => Sys2Proof.Machine.execPbFill s
  | .pbGetb n => Sys2Proof.Machine.execPbGetb n s
  | .pbSetb n => Sys2Proof.Machine.execPbSetb n s
  | .pbClrb n => Sys2Proof.Machine.execPbClrb n s
  | .pbAndi mask => Sys2Proof.Machine.execPbAndi mask s
  | .pbByte b => Sys2Proof.Machine.execPbByte b s
  | .fbClr => Sys2Proof.Machine.execFbClr s
  | .fbFill => Sys2Proof.Machine.execFbFill s
  | .fbGetb n => Sys2Proof.Machine.execFbGetb n s
  | .fbSetb n => Sys2Proof.Machine.execFbSetb n s
  | .fbClrb n => Sys2Proof.Machine.execFbClrb n s
  | .fbByte b => Sys2Proof.Machine.execFbByte b s
  | .gridInit => Sys2Proof.Machine.execGridInit s
  | .pxSet x y => Sys2Proof.Machine.execPxSet x y s
  | .pxClr x y => Sys2Proof.Machine.execPxClr x y s
  | .pxGet x y => Sys2Proof.Machine.execPxGet x y s
  | .gridRawb r => Sys2Proof.Machine.execGridRawb r s
  | .patLd c v => Sys2Proof.Machine.execPatLd c v s
  | .patStart => Sys2Proof.Machine.execPatStart s
  | .patStop => Sys2Proof.Machine.execPatStop s
  | .indL row => Sys2Proof.Machine.execIndL row s
  | .indR row => Sys2Proof.Machine.execIndR row s
  | .drawBar row m => Sys2Proof.Machine.execDrawBar row m s
  | .drawSpc row m => Sys2Proof.Machine.execDrawSpc row m s
  | .drawPb row slot => Sys2Proof.Machine.execDrawPb row slot s
  | .renderRow row => Sys2Proof.Machine.execRenderRow row s
  | .render => Sys2Proof.Machine.execRender s

end Sys2Proof.Machine
end

