-- ==== Sys2Proof/Machine/Step.lean ====
section
/-! DEFINITION. One step: the block takes the next input from its ports and runs it to completion (R5, R72, R330). -/

namespace Sys2Proof.Machine

/-- One command word: decoded and run, or illegal (R84, R105). -/
def runWord (w : Word) (s : State) : Host.Outcome State Fault Refusal :=
  match decode w with
  | .ok i => exec i s
  | .error _ => illegalCommand w s

/-- One step. With nothing presented the state is constant (R304). -/
def step (s : State) : Host.Outcome State Fault Refusal :=
  match s.takeInput with
  | none => .next s
  | some (.command w, t) => runWord w t
  | some (.hardwareReset, t) => .next t.resetNow

/-- `s` with the word of an instruction presented at the command port, ahead of everything presented before. -/
def State.withFetchWord (s : State) (nbits w : Nat) : State :=
  { s with port := .command (BitVec.ofNat 32 (w % 2 ^ nbits)) :: s.port }

end Sys2Proof.Machine
end

