-- ==== Sys2Proof/Machine/Pseudo.lean ====
section
/-! DEFINITION. The assembler's pseudo-instructions (R89). They are notation of the host's: each stands for the listed
commands, and the block only ever sees those. -/

namespace Sys2Proof.Machine

/-- `CFG level, rows, dcols, ndata` (R89). -/
def pseudoCfg (level rows dcols ndata : Nat) : List Instr :=
  [.wrcfg 0x00 level, .wrcfg 0x01 rows, .wrcfg 0x02 dcols, .wrcfg 0x03 ndata]

/-- `SCALE modw, rhm, margin` (R89). -/
def pseudoScale (modw rhm margin : Nat) : List Instr := [.wrcfg 0x04 modw, .wrcfg 0x05 rhm, .wrcfg 0x06 margin]

/-- `LOADCW base, v0, v1, ..., vm` (R89). -/
def pseudoLoadcw (base : Nat) : List Nat → List Instr
  | [] => []
  | v :: vs => .cwWr base v :: pseudoLoadcw (base + 1) vs

/-- `PUSHCW v0, v1, ..., vm` (R89). -/
def pseudoPushcw (vs : List Nat) : List Instr := vs.map .eccPush

end Sys2Proof.Machine
end

