-- ==== Sys2Proof/Safety.lean ====
section
/-! DEFINITION. What the block keeps true of its own state in every run, and the notions the claims are stated with. -/

namespace Sys2Proof.Machine

/-- The block takes a command of an open session: not faulted (R293), `SESSION` = 1 (R105). -/
abbrev State.ready (s : State) : Prop := s.faulted = false ∧ s.session = true

/-- `s` with the command word `w` presented next at the command port. -/
def State.present (s : State) (w : Word) : State := { s with port := .command w :: s.port }

/-- The legal settings of `BEGIN`'s ten tests (R103), on a snapshot. -/
structure Snapshot.Legal (S : Snapshot) (fbWords : Nat) : Prop where
  level : S.level ≤ 8
  rows : 1 ≤ S.rows ∧ S.rows ≤ 90
  dcols : 1 ≤ S.dcols ∧ S.dcols ≤ 30
  ndata : 1 ≤ S.ndata
  modw : 1 ≤ S.modw ∧ S.modw ≤ 255
  rhm : 1 ≤ S.rhm ∧ S.rhm ≤ 255
  margin : S.margin ≤ 4095
  k : S.k = 2 <<< S.level
  capacity : S.ndata + S.k ≤ 1024
  cells : S.ndata + S.k = S.rows * S.dcols
  width : S.gridW ≤ 4096
  height : S.gridH ≤ 4096
  frame : S.gridAW * S.gridH / 32 ≤ fbWords

/-- The memories are in canonical form and inside their spaces (R60): `ACC` of 512 slots, `CW` of 1024 entries, valid
bits only at the positions the session has, `FB` of `FB_WORDS` words. -/
structure State.MemoriesOk (s : State) : Prop where
  acc : s.acc.wf 0 ∧ s.acc.below accSlotCount
  cw : s.cw.wf 0 ∧ s.cw.below cwCap
  cwv : s.cwv.wf false ∧ s.cwv.below (s.snap.ndata + s.snap.k)
  fb : s.fb.wf 0#8 ∧ s.fb.below (4 * s.inst.fbWords)

/-- `FAULTED` equals `ERR != 0`, and nothing is recorded without a fault (R32, R34). -/
structure State.FaultRecordOk (s : State) : Prop where
  flag : s.faulted = true ↔ s.err ≠ .noFault
  clear : s.faulted = false → s.errInfo = 0#16 ∧ s.errCmd = 0#32

/-- Without a session nothing of one is there (R42). -/
abbrev State.NoSessionOk (s : State) : Prop :=
  s.session = false →
    s.snap = Snapshot.reset ∧ s.geom = Geometry.reset ∧ s.eccPhase = .idle ∧ s.eccCount = 0 ∧ s.gridValid = false ∧
      s.pbValid = false ∧ s.cwv = []

/-- In a session the snapshot passed `BEGIN`'s tests and the geometry is the one R31 derives from it. -/
abbrev State.SessionOk (s : State) : Prop :=
  s.session = true → s.snap.Legal s.inst.fbWords ∧ s.geom = Geometry.ofSnapshot s.snap

/-- `ECC_COUNT` and the valid bits go with `ECC_PHASE` (R33, R35, R131). -/
structure State.CorrectorOk (s : State) : Prop where
  count : s.eccCount ≤ s.snap.ndata
  idle : s.eccPhase = .idle → s.eccCount = 0
  absorbed : ∀ i, i < s.eccCount → s.cwValid i = true
  finished : s.eccPhase = .done ∨ s.eccPhase = .checked →
    s.eccCount = s.snap.ndata ∧ ∀ i, i < s.snap.ndata + s.snap.k → s.cwValid i = true

/-- The block's invariant. -/
structure State.Inv (s : State) : Prop where
  memories : s.MemoriesOk
  fault : s.FaultRecordOk
  noSession : s.NoSessionOk
  session : s.SessionOk
  corrector : s.CorrectorOk

/-- Two states that differ at most in contents no rule lets a host observe: accumulator slots outside a computation,
invalid codeword entries, an invalid pattern buffer, and frame bits that are not part of a valid grid (R323). -/
structure State.Alike (s t : State) : Prop where
  rest : t = { s with acc := t.acc, cw := t.cw, pb := t.pb, fb := t.fb }
  acc : s.eccPhase ≠ .idle → ∀ j, j < s.snap.k → t.accAt j = s.accAt j
  cw : ∀ i, s.cwValid i = true → t.cwAt i = s.cwAt i
  pb : s.pbValid = true → t.pb = s.pb
  fb : s.gridValid = true → ∀ i, i < s.fbBits → fbBit t.fb i = fbBit s.fb i

/-- A list of commands run one after the other (R72). -/
def execList : List Instr → State → Host.Outcome State Fault Refusal
  | [], s => .next s
  | i :: is, s =>
    match exec i s with
    | .next t => execList is t
    | .fault r => .fault r
    | .refused r => .refused r

end Sys2Proof.Machine
end

