-- ==== Sys2Proof/Certificates/Slice0/Obligations.lean ====
section
/-! DEFINITION. The statements for the provers. Nothing here is proved. Every statement about a next state holds for every
content of the ROMs and every depth of the frame memory, because those are data of the state it quantifies over. -/

open Sys2Proof Sys2Proof.Machine

/-! Notions the statements share, written from the rules and not from the meanings. -/

/-- The column *rsp* of R86. -/
def Sys2Proof.Claims.responds : Instr → Bool
  | .rdreg _ | .eccRdacc _ | .eccChk | .cwRd _ | .pbGetb _ | .pbByte _ | .fbGetb _ | .fbByte _ | .pxGet _ _
  | .gridRawb _ | .indL _ | .indR _ => true
  | _ => false

/-- The commands R105 runs without an open session. -/
def Sys2Proof.Claims.needsNoSession : Instr → Bool
  | .nop | .wrcfg _ _ | .rdreg _ | .begin_ | .sreset => true
  | _ => false

/-- The commands R105 runs while `FAULTED` (column *F* of R86). -/
def Sys2Proof.Claims.runsWhileFaulted : Instr → Bool
  | .nop | .rdreg _ | .sreset => true
  | _ => false

/-- The ten tests of R103 in order, each with what it raises; the geometry is computed as in R31. -/
def Sys2Proof.Claims.beginTests (c : CfgRegs) (fbWords : Nat) : List (Bool × Raised) :=
  let K := 2 <<< c.level.toNat
  let W := ((c.dcols.toNat + 4) * 17 + 1) * c.modw.toNat + 2 * c.margin.toNat
  let H := c.rows.toNat * c.modw.toNat * c.rhm.toNat + 2 * c.margin.toNat
  let AW := (W + 31) / 32 * 32
  [(decide (c.level.toNat ≤ 8), (.invalidConfig, 0x00)),
    (decide (1 ≤ c.rows.toNat ∧ c.rows.toNat ≤ 90), (.invalidConfig, 0x01)),
    (decide (1 ≤ c.dcols.toNat ∧ c.dcols.toNat ≤ 30), (.invalidConfig, 0x02)),
    (decide (1 ≤ c.ndata.toNat), (.invalidConfig, 0x03)),
    (decide (1 ≤ c.modw.toNat ∧ c.modw.toNat ≤ 255), (.invalidConfig, 0x04)),
    (decide (1 ≤ c.rhm.toNat ∧ c.rhm.toNat ≤ 255), (.invalidConfig, 0x05)),
    (decide (c.margin.toNat ≤ 4095), (.invalidConfig, 0x06)),
    (decide (c.ndata.toNat + K ≤ 1024), (.capacityExceeded, 0)),
    (decide (c.ndata.toNat + K = c.rows.toNat * c.dcols.toNat), (.invalidConfig, 0x08)),
    (decide (W ≤ 4096 ∧ H ≤ 4096 ∧ AW * H / 32 ≤ fbWords), (.frameCapacity, 0))]

/-- The bit of `FB` that is pixel (dx, dy) of module `m` of symbol row `row` (R65, R218). -/
def Sys2Proof.Claims.moduleBit (s : State) (row m dx dy : Nat) : Nat :=
  (s.snap.margin + row * s.snap.modw * s.snap.rhm + dy) * s.geom.gridAW + (s.snap.margin + m * s.snap.modw + dx)

/-- The value of module `m` of symbol row `row`, read off the table of R222: slot `m div 17` holds the start pattern, the
left indicator's, a codeword's, the right indicator's or the stop pattern, and its module `m mod 17` is bit
`16 - m mod 17` (R210); the module after the last slot is set. -/
def Sys2Proof.Claims.rowModule (s : State) (row m : Nat) : Bool :=
  let p : Pattern :=
    if m / 17 = 0 then s.inst.startPattern
    else if m / 17 = 1 then s.patAt (row % 3) (s.snap.left row)
    else if m / 17 < s.snap.dcols + 2 then s.patAt (row % 3) (s.cwAt (row * s.snap.dcols + (m / 17 - 2))).val
    else if m / 17 = s.snap.dcols + 2 then s.patAt (row % 3) (s.snap.right row)
    else s.inst.stopPattern
  if m / 17 = s.snap.dcols + 4 then true else p.getLsbD (16 - m % 17)

/-! Encoding. -/

/-- No bit of an encoding is dropped: every command with every operand value its fields admit comes back from its own
word (R81, R82, R86). -/
def Obligations.DecodeOfEncodeIsTheCommand : Prop :=
  ∀ i : Instr, i.wf = true → decode (encode i) = .ok i

/-- A word has at most one meaning: the word of the command it decodes to is that word itself (R84). -/
def Obligations.EncodeOfDecodeIsTheWord : Prop :=
  ∀ (w : Word) (i : Instr), decode w = .ok i → i.wf = true ∧ encode i = w

/-- The match and mask rows of R87 are the decoder: a word is a row's command exactly when it matches the row, no word
matches two rows, and every command has its row (R84, R86, R87). -/
def Obligations.MatchAndMaskRowsAreTheDecoder : Prop :=
  (∀ (w : Word) (r : OpRow), r ∈ opcodeRows →
    (w &&& r.mask = r.value ↔ ∃ i, decode w = .ok i ∧ i.mnemonic = r.mnemonic)) ∧
  (∀ (w : Word) (r r' : OpRow), r ∈ opcodeRows → r' ∈ opcodeRows → w &&& r.mask = r.value → w &&& r'.mask = r'.value →
    r = r') ∧
  (∀ i : Instr, ∃ r ∈ opcodeRows, r.mnemonic = i.mnemonic)

/-- R85's list of reserved encodings is exactly the words that are no command. -/
def Obligations.ReservedEncodingsAreIllegal : Prop :=
  ∀ w : Word, (∃ e, decode w = .error e) ↔
    let op := w.toNat / 2 ^ 24
    (0x05 ≤ op ∧ op ≤ 0x0F) ∨ (0x16 ≤ op ∧ op ≤ 0x1F) ∨ (0x22 ≤ op ∧ op ≤ 0x2F) ∨ (0x37 ≤ op ∧ op ≤ 0x3F) ∨ op = 0x45 ∨
    (0x47 ≤ op ∧ op ≤ 0x4F) ∨ (0x55 ≤ op ∧ op ≤ 0x5F) ∨ (0x6A ≤ op ∧ op ≤ 0xFF) ∨
    (op ∈ [0x00, 0x03, 0x04, 0x10, 0x12, 0x13, 0x15, 0x30, 0x31, 0x40, 0x41, 0x50, 0x61, 0x62, 0x69] ∧
      w.toNat % 2 ^ 24 ≠ 0) ∨
    (op = 0x02 ∧ w.toNat % 2 ^ 16 ≠ 0)

/-- A sanity statement: words of the spec's own examples, one per family, decode to the commands they stand for (R88,
R100 to R104, R127, R150, R166, R174, R191, R211, R219). -/
def Obligations.WordsOfTheSpecDecode : Prop :=
  decode 0x01000002#32 = .ok (.wrcfg 0 2) ∧ decode 0x20003384#32 = .ok (.cwWr 3 900) ∧
  decode 0x53011009#32 = .ok (.pxGet 17 9) ∧ decode 0x022F0000#32 = .ok (.rdreg 0x2F) ∧
  decode 0x11000003#32 = .ok (.eccPush 3) ∧ decode 0x35FFFFFF#32 = .ok (.pbAndi 0xFFFFFF) ∧
  decode 0x46000001#32 = .ok (.fbByte 1) ∧ decode 0x600023A0#32 = .ok (.patLd 2 928) ∧
  decode 0x65001077#32 = .ok (.drawBar 1 119) ∧ decode 0x69000000#32 = .ok .render

/-! The step and the common gate. -/

/-- A step runs the decoded command: when the word next at the port decodes to `i`, the step is `exec i` on the state once
the port has accepted the word; and there is nothing else around it (R72, R80, R84). The list of presented words is the model's
form of the command port (assumption log 7). -/
def Obligations.StepRunsTheDecodedCommand : Prop :=
  ∀ (s : State) (w : Word) (i : Instr), decode w = .ok i → step (s.present w) = exec i s

/-- Between commands the state is constant (R304), and hardware reset leaves the state `SRESET` leaves (R321). That
hardware reset is one input between two commands is the model's choice (assumption log 8). -/
def Obligations.IdleHoldsAndHardwareResetIsSreset : Prop :=
  (∀ s : State, s.port = [] → step s = .next s) ∧
  (∀ s : State, step { s with port := .hardwareReset :: s.port } = step (s.present 0x04000000#32)) ∧
  (∀ s t : State, step { s with port := .hardwareReset :: s.port } = .next t → t.rsp = s.rsp ∧ t.inst = s.inst)

/-- Every command word, legal or not, in every state, and every other input, is answered by a next state: a command is a
total function and no combination of commands is unpredictable (R5, R84, R337). -/
def Obligations.EveryInputIsAnsweredByANextState : Prop :=
  (∀ s : State, ∃ t, step s = .next t) ∧ ∀ (i : Instr) (s : State), ∃ t, exec i s = .next t

/-- A faulted block drops every word, legal or not, that is not a well-formed `NOP`, `RDREG` or `SRESET`: no state change,
no response (R105 step 1, R293). -/
def Obligations.FaultedBlockDropsEveryOtherWord : Prop :=
  ∀ (s : State) (w : Word), s.faulted = true →
    (∀ i, decode w = .ok i → Claims.runsWhileFaulted i = false) → step (s.present w) = .next s

/-- An illegal word raises `ILLEGAL_COMMAND(0)`, records itself in `ERRCMD`, and has no other effect (R84, R105 step 2,
R299). -/
def Obligations.IllegalWordRaisesIllegalCommand : Prop :=
  ∀ (s : State) (w : Word) (e : Reject), s.faulted = false → decode w = .error e →
    step (s.present w) =
      .next { s with err := .illegalCommand, errInfo := 0#16, errCmd := w, faulted := true }

/-- Without an open session every command but `NOP`, `WRCFG`, `RDREG`, `BEGIN` and `SRESET` raises `SEQUENCE(4)` (R105
step 3, R324). The recorded word is `encode i` (assumption log 10). -/
def Obligations.NoSessionRaisesSequenceFour : Prop :=
  ∀ (s : State) (i : Instr), s.faulted = false → s.session = false → Claims.needsNoSession i = false →
    exec i s = .next { s with err := .sequence, errInfo := 4#16, errCmd := encode i, faulted := true }

/-- Faults are precise: the state after a fault is the state before the command, plus the four fault fields; so a faulting
command writes nothing else and appends no response (R292). The recorded word is `encode i` (assumption log 10). -/
def Obligations.FaultsArePrecise : Prop :=
  ∀ (i : Instr) (s t : State), s.faulted = false → exec i s = .next t → t.faulted = true →
    ∃ c info, c ≠ .noFault ∧
      t = { s with err := c, errInfo := BitVec.ofNat 16 info, errCmd := encode i, faulted := true }

/-- The first fault is the only one recorded until `SRESET` or reset, which clear the record; there is no other exit from
`FAULTED` (R34, R292, R293). -/
def Obligations.FirstFaultStaysUntilReset : Prop :=
  ∀ s t : State, s.faulted = true → step s = .next t →
    (t.faulted = true ∧ t.err = s.err ∧ t.errInfo = s.errInfo ∧ t.errCmd = s.errCmd) ∨
    ((∃ rest, s.port = .hardwareReset :: rest ∨ s.port = .command 0x04000000#32 :: rest) ∧
      t.faulted = false ∧ t.err = .noFault ∧ t.errInfo = 0#16 ∧ t.errCmd = 0#32)

/-! Invariants and whole-machine rules. -/

/-- The block's invariant is kept by every step, from every state that has it: the memories stay canonical and inside
their spaces, `FAULTED` equals `ERR != 0`, a session's snapshot passed `BEGIN`'s tests and its geometry is R31's, and
`ECC_COUNT` and the valid bits go with `ECC_PHASE`. The canonical form of the memories is the model's own (assumption
logs 5, 6). -/
def Obligations.EveryStepKeepsTheBlockSound : Prop :=
  ∀ s t : State, s.Inv → step s = .next t → t.Inv

/-- The block is sound right after reset (R42). -/
def Obligations.ResetIsSound : Prop := State.reset.Inv

/-- What reset leaves, value by value (R42): the configuration defaults, everything else of the registers 0, every valid
bit 0. -/
def Obligations.ResetValuesAreTheTable : Prop :=
  let s := State.reset
  s.register 0x00 = 15#32 ∧ s.register 0x01 = 0#32 ∧ s.register 0x02 = 0#32 ∧ s.register 0x03 = 0#32 ∧
  s.register 0x04 = 4#32 ∧ s.register 0x05 = 3#32 ∧ s.register 0x06 = 8#32 ∧
  (∀ r, 0x10 ≤ r → r ≤ 0x1C → s.register r = 0#32) ∧ s.status = 0#32 ∧
  s.register 0x21 = 0#32 ∧ s.register 0x22 = 0#32 ∧ s.register 0x23 = 0#32 ∧ s.register 0x24 = 0#32 ∧
  s.register 0x2F = 0x92900100#32 ∧ ∀ i, s.cwValid i = false

/-- The transitions of `ECC_PHASE` are the only ones (R33; reset and `SRESET` besides, R32). -/
def Obligations.EccPhaseTransitionsAreTheOnlyOnes : Prop :=
  ∀ (i : Instr) (s t : State), exec i s = .next t → t.eccPhase ≠ s.eccPhase →
    (i = .begin_ ∧ t.eccPhase = .idle) ∨ (i = .eccStart ∧ t.eccPhase = .absorb) ∨
    (i = .eccFin ∧ s.eccPhase = .absorb ∧ s.eccCount = s.snap.ndata ∧ t.eccPhase = .done) ∨
    (i = .eccChk ∧ s.eccPhase = .done ∧ t.eccPhase = .checked) ∨ (i = .sreset ∧ t.eccPhase = .idle)

/-- The registers and flags change only by the commands the tables of R24, R30, R31, R32 and R35 name; `FAULTED` is set only
by a fault, which is also all that writes `ERR`, `ERRINFO` and `ERRCMD`, and only `SRESET` clears the four (R32, R34). -/
def Obligations.RegistersChangeOnlyByTheirCommands : Prop :=
  ∀ (i : Instr) (s t : State), exec i s = .next t →
    (t.cfg ≠ s.cfg → (∃ r v, i = .wrcfg r v) ∨ i = .sreset) ∧
    (t.snap ≠ s.snap ∨ t.geom ≠ s.geom → i = .begin_ ∨ i = .sreset) ∧
    (t.session ≠ s.session → (i = .begin_ ∧ t.session = true) ∨ (i = .sreset ∧ t.session = false)) ∧
    (t.gridValid ≠ s.gridValid →
      (i = .gridInit ∧ t.gridValid = true) ∨ ((i = .begin_ ∨ i = .sreset) ∧ t.gridValid = false)) ∧
    (t.pbValid ≠ s.pbValid →
      ((i = .pbClr ∨ i = .pbFill ∨ (∃ c v, i = .patLd c v) ∨ i = .patStart ∨ i = .patStop ∨ (∃ r, i = .renderRow r) ∨
        i = .render) ∧ t.pbValid = true) ∨
      ((i = .begin_ ∨ i = .sreset) ∧ t.pbValid = false)) ∧
    (t.eccPhase ≠ s.eccPhase → i = .begin_ ∨ i = .sreset ∨ i = .eccStart ∨ i = .eccFin ∨ i = .eccChk) ∧
    (t.eccCount ≠ s.eccCount →
      i = .begin_ ∨ i = .sreset ∨ i = .eccStart ∨ (∃ c, i = .eccPush c) ∨ i = .eccRun) ∧
    (t.faulted ≠ s.faulted →
      (t.faulted = true ∧ t.err ≠ .noFault ∧ t.errCmd = encode i) ∨ (i = .sreset ∧ t.faulted = false)) ∧
    (t.err ≠ s.err ∨ t.errInfo ≠ s.errInfo ∨ t.errCmd ≠ s.errCmd →
      (s.faulted = false ∧ t.faulted = true) ∨ i = .sreset) ∧
    (t.inst = s.inst) ∧ (t.port = s.port)

/-- The memories change only by the commands whose rules write them: `ACC` by those of R37, `CW` and its valid bits by those
of R38, `PB` and `FB` by those of the table of R60 whose own rules write them (R161 to R174, R190 to R192, R211 to R213, R219
to R224). `BEGIN` and `SRESET` clear the valid bits; `SRESET` is left out, because the contents are unspecified after it. -/
def Obligations.MemoriesChangeOnlyByTheirCommands : Prop :=
  ∀ (i : Instr) (s t : State), exec i s = .next t → i ≠ .sreset →
    ((∃ j, t.accAt j ≠ s.accAt j) →
      i = .eccStart ∨ (∃ c, i = .eccPush c) ∨ i = .eccRun ∨ i = .eccFin ∨ i = .eccChk) ∧
    ((∃ j, t.cwAt j ≠ s.cwAt j) → (∃ x c, i = .cwWr x c) ∨ (∃ c, i = .eccPush c) ∨ i = .eccFin) ∧
    ((∃ j, t.cwValid j ≠ s.cwValid j) →
      i = .begin_ ∨ (∃ x c, i = .cwWr x c) ∨ (∃ c, i = .eccPush c) ∨ i = .eccFin) ∧
    (t.pb ≠ s.pb →
      i = .pbClr ∨ i = .pbFill ∨ (∃ b, i = .pbSetb b) ∨ (∃ b, i = .pbClrb b) ∨ (∃ m, i = .pbAndi m) ∨
      (∃ c v, i = .patLd c v) ∨ i = .patStart ∨ i = .patStop ∨ (∃ r, i = .renderRow r) ∨ i = .render) ∧
    ((∃ j, fbBit t.fb j ≠ fbBit s.fb j) →
      i = .fbClr ∨ i = .fbFill ∨ (∃ b, i = .fbSetb b) ∨ (∃ b, i = .fbClrb b) ∨ i = .gridInit ∨
      (∃ x y, i = .pxSet x y) ∨ (∃ x y, i = .pxClr x y) ∨ (∃ r m, i = .drawBar r m) ∨ (∃ r m, i = .drawSpc r m) ∨
      (∃ r m, i = .drawPb r m) ∨ (∃ r, i = .renderRow r) ∨ i = .render)

/-- A responding command appends exactly one word when, and only when, it completes without a fault; nothing else appends,
and nothing takes a word back (R40, R86 column *rsp*). -/
def Obligations.OneResponsePerRespondingCommand : Prop :=
  ∀ (i : Instr) (s t : State), exec i s = .next t →
    (Claims.responds i = false → t.rsp = s.rsp) ∧
    (t.faulted ≠ s.faulted → t.rsp = s.rsp) ∧
    (s.faulted = true → Claims.runsWhileFaulted i = false → t.rsp = s.rsp) ∧
    (Claims.responds i = true → s.faulted = false ∨ Claims.runsWhileFaulted i = true → t.faulted = s.faulted →
      ∃ w, t.rsp = s.rsp ++ [w])

/-- Unspecified contents are unobservable: two sound states that differ at most in contents nothing in the session wrote
take the same next input to states that again differ at most so, with the same response trace (R323, R338). -/
def Obligations.UnspecifiedContentsAreUnobservable : Prop :=
  ∀ s t s' : State, s.Inv → s.Alike t → step s = .next s' → ∃ t', step t = .next t' ∧ s'.Alike t'

/-! System commands. -/

/-- `NOP` does nothing, in any state (R100). -/
def Obligations.NopDoesNothing : Prop :=
  (∀ s : State, exec .nop s = .next s) ∧
  encode .nop = 0x00000000#32

/-- `WRCFG` stores the whole 16-bit value in its register and touches nothing else, session or not; a read-only or
unimplemented index raises `INDEX_RANGE(reg)` (R101, R36). -/
def Obligations.WrcfgWritesOneRegister : Prop :=
  (∀ (s : State) (reg imm16 : Nat), s.faulted = false → imm16 < 2 ^ 16 →
     (reg < 7 → ∃ t, exec (.wrcfg reg imm16) s = .next t ∧ t = { s with cfg := t.cfg } ∧
       t.register reg = BitVec.ofNat 32 imm16 ∧ ∀ r, r < 7 → r ≠ reg → t.register r = s.register r) ∧
     (7 ≤ reg → exec (.wrcfg reg imm16) s = .next (s.raise (.indexRange, reg) (encode (.wrcfg reg imm16))))) ∧
  ∀ reg imm16 : Nat, encode (.wrcfg reg imm16) = BitVec.ofNat 32 (0x01 * 2 ^ 24 + reg * 2 ^ 16 + imm16)

/-- `RDREG` responds the register's value, in any state, faulted or not; an unimplemented index responds 0 (R102, R24, R30,
R31, R34 to R36). A snapshot or geometry field is cut to 32 bits, which no session reaches (assumption log 11). -/
def Obligations.RdregRespondsTheRegister : Prop :=
  ((∀ (s : State) (reg : Nat), exec (.rdreg reg) s = .next { s with rsp := s.rsp ++ [s.register reg] }) ∧
   ∀ s : State,
     s.register 0x00 = s.cfg.level.setWidth 32 ∧ s.register 0x01 = s.cfg.rows.setWidth 32 ∧
     s.register 0x02 = s.cfg.dcols.setWidth 32 ∧ s.register 0x03 = s.cfg.ndata.setWidth 32 ∧
     s.register 0x04 = s.cfg.modw.setWidth 32 ∧ s.register 0x05 = s.cfg.rhm.setWidth 32 ∧
     s.register 0x06 = s.cfg.margin.setWidth 32 ∧
     s.register 0x10 = BitVec.ofNat 32 s.snap.level ∧ s.register 0x11 = BitVec.ofNat 32 s.snap.rows ∧
     s.register 0x12 = BitVec.ofNat 32 s.snap.dcols ∧ s.register 0x13 = BitVec.ofNat 32 s.snap.ndata ∧
     s.register 0x14 = BitVec.ofNat 32 s.snap.modw ∧ s.register 0x15 = BitVec.ofNat 32 s.snap.rhm ∧
     s.register 0x16 = BitVec.ofNat 32 s.snap.margin ∧ s.register 0x17 = BitVec.ofNat 32 s.snap.k ∧
     s.register 0x18 = BitVec.ofNat 32 s.geom.symCols ∧ s.register 0x19 = BitVec.ofNat 32 s.geom.gridW ∧
     s.register 0x1A = BitVec.ofNat 32 s.geom.gridH ∧ s.register 0x1B = BitVec.ofNat 32 s.geom.gridAW ∧
     s.register 0x1C = BitVec.ofNat 32 s.geom.fbUsed ∧ s.register 0x20 = s.status ∧
     s.register 0x21 = BitVec.ofNat 32 s.err.code ∧ s.register 0x22 = s.errInfo.setWidth 32 ∧
     s.register 0x23 = s.errCmd ∧ s.register 0x24 = BitVec.ofNat 32 s.eccCount ∧ s.register 0x2F = 0x92900100#32 ∧
     ∀ r, (0x07 ≤ r ∧ r ≤ 0x0F) ∨ (0x1D ≤ r ∧ r ≤ 0x1F) ∨ (0x25 ≤ r ∧ r ≤ 0x2E) ∨ 0x30 ≤ r → s.register r = 0#32) ∧
  ∀ reg : Nat, encode (.rdreg reg) = BitVec.ofNat 32 (0x02 * 2 ^ 24 + reg * 2 ^ 16)

/-- The bits of `STATUS` (R32). -/
def Obligations.StatusBitsAreTheFlags : Prop :=
  ∀ s : State,
    s.status.getLsbD 0 = s.session ∧
    s.status.extractLsb' 1 2 =
      (match s.eccPhase with | .idle => 0#2 | .absorb => 1#2 | .done => 2#2 | .checked => 3#2) ∧
    s.status.getLsbD 3 = s.gridValid ∧ s.status.getLsbD 4 = s.pbValid ∧ s.status.getLsbD 5 = s.faulted ∧
    s.errIrq = s.faulted ∧ ∀ b, 6 ≤ b → s.status.getLsbD b = false

/-- `BEGIN` runs its ten tests in order; the first failing one is raised and nothing else is written; when all pass it
takes the snapshot, derives the geometry and opens a session with nothing valid in it (R103, R30, R31). -/
def Obligations.BeginTestsThenOpensTheSession : Prop :=
  (∀ s : State, s.faulted = false →
     match (Claims.beginTests s.cfg s.inst.fbWords).find? (fun x => !x.1) with
     | some (_, r) => exec .begin_ s = .next (s.raise r 0x03000000#32)
     | none => ∃ t, exec .begin_ s = .next t ∧
         t = { s with snap := t.snap, geom := t.geom, session := true, eccPhase := .idle, eccCount := 0,
                      gridValid := false, pbValid := false, cwv := t.cwv } ∧
         t.snap = { level := s.cfg.level.toNat, rows := s.cfg.rows.toNat, dcols := s.cfg.dcols.toNat,
                    ndata := s.cfg.ndata.toNat, modw := s.cfg.modw.toNat, rhm := s.cfg.rhm.toNat,
                    margin := s.cfg.margin.toNat, k := 2 <<< s.cfg.level.toNat } ∧
         t.geom.symCols = (t.snap.dcols + 4) * 17 + 1 ∧
         t.geom.gridW = t.geom.symCols * t.snap.modw + 2 * t.snap.margin ∧
         t.geom.gridH = t.snap.rows * t.snap.modw * t.snap.rhm + 2 * t.snap.margin ∧
         t.geom.gridAW % 32 = 0 ∧ t.geom.gridW ≤ t.geom.gridAW ∧ t.geom.gridAW < t.geom.gridW + 32 ∧
         32 * t.geom.fbUsed = t.geom.gridAW * t.geom.gridH ∧
         ∀ i, t.cwValid i = false) ∧
  encode .begin_ = 0x03000000#32

/-- `SRESET` gives every piece of state the value R42's table states, faulted or not; it keeps the response trace and the
parameters (R104, R42, R322). The contents of `ACC`, `CW`, `PB` and `FB`, which the table leaves unspecified, are not
spoken of. -/
def Obligations.SresetGivesTheResetTable : Prop :=
  (∀ s : State, ∃ t, exec .sreset s = .next t ∧
     t.cfg = { level := 15#16, rows := 0#16, dcols := 0#16, ndata := 0#16, modw := 4#16, rhm := 3#16, margin := 8#16 } ∧
     t.snap = { level := 0, rows := 0, dcols := 0, ndata := 0, modw := 0, rhm := 0, margin := 0, k := 0 } ∧
     t.geom = { symCols := 0, gridW := 0, gridH := 0, gridAW := 0, fbUsed := 0 } ∧
     t.status = 0#32 ∧ t.err = .noFault ∧ t.errInfo = 0#16 ∧ t.errCmd = 0#32 ∧ t.eccCount = 0 ∧
     t.register 0x2F = 0x92900100#32 ∧ (∀ i, t.cwValid i = false) ∧ t.rsp = s.rsp ∧ t.inst = s.inst ∧ t.port = s.port) ∧
  encode .sreset = 0x04000000#32

/-! The corrector. -/

/-- The three primitives over the integers modulo 929, and the identity that makes the slot update a sum (R120 to R122). -/
def Obligations.Gf929PrimitivesAreExact : Prop :=
  ∀ a b : Codeword,
    a.val * b.val ≤ 861184 ∧ (mulmod a b).val = a.val * b.val % 929 ∧
    a.val + b.val ≤ 1856 ∧ (addmod a b).val = (a.val + b.val) % 929 ∧
    (negmod a).val = (if a.val = 0 then 0 else 929 - a.val) ∧ (negmod a).val = (929 - a.val) % 929 ∧
    (addmod a (negmod b)).val = (a.val + 929 - b.val) % 929 ∧ a.val + 929 - b.val ≤ 1857 ∧
    mulmod a 0 = 0 ∧ mulmod a 1 = a ∧ addmod a 0 = a ∧ addmod a (negmod a) = 0

/-- The absorb step, slot by slot, every slot from the old array (R124). -/
def Obligations.AbsorbUpdatesEverySlotFromTheOldArray : Prop :=
  ∀ (A C : List Codeword) (cw : Codeword), A.length = C.length → 0 < C.length →
    (absorb A cw C).length = A.length ∧
    (absorb A cw C).getD 0 0 = negmod (mulmod (addmod cw (A.getD (A.length - 1) 0)) (C.getD 0 0)) ∧
    ∀ j, 1 ≤ j → j < A.length →
      (absorb A cw C).getD j 0 =
        addmod (A.getD (j - 1) 0) (negmod (mulmod (addmod cw (A.getD (A.length - 1) 0)) (C.getD j 0)))

/-- `ECC.START` (R126): the session's slots become 0, in every phase; `CW` and `CWV` are not touched. -/
def Obligations.EccStartClearsTheAccumulator : Prop :=
  (∀ s : State, s.ready → ∃ t, exec .eccStart s = .next t ∧
     t = { s with acc := t.acc, eccCount := 0, eccPhase := .absorb } ∧
     ∀ j, t.accAt j = if j < s.snap.k then 0 else s.accAt j) ∧
  encode .eccStart = 0x10000000#32

/-- `ECC.PUSH` (R127): stores one data codeword at position `ECC_COUNT` and absorbs it; its three tests in order. -/
def Obligations.EccPushStoresAndAbsorbs : Prop :=
  (∀ (s : State) (cw : Nat), s.ready →
     (s.eccPhase = .absorb → s.eccCount < s.snap.ndata → cw ≤ 928 → ∃ t, exec (.eccPush cw) s = .next t ∧
       t = { s with cw := t.cw, cwv := t.cwv, acc := t.acc, eccCount := s.eccCount + 1 } ∧
       (t.cwAt s.eccCount).val = cw ∧ t.cwValid s.eccCount = true ∧
       (∀ i, i ≠ s.eccCount → t.cwAt i = s.cwAt i ∧ t.cwValid i = s.cwValid i) ∧
       ∀ j, t.accAt j =
         if j < s.snap.k then (absorb s.accSlots (toCodeword cw) s.coeffs).getD j 0 else s.accAt j) ∧
     (s.eccPhase ≠ .absorb → exec (.eccPush cw) s = .next (s.raise (.sequence, 0) (encode (.eccPush cw)))) ∧
     (s.eccPhase = .absorb → s.snap.ndata ≤ s.eccCount →
       exec (.eccPush cw) s = .next (s.raise (.sequence, 1) (encode (.eccPush cw)))) ∧
     (s.eccPhase = .absorb → s.eccCount < s.snap.ndata → 928 < cw →
       exec (.eccPush cw) s = .next (s.raise (.codewordRange, cw) (encode (.eccPush cw))))) ∧
  ∀ cw : Nat, encode (.eccPush cw) = BitVec.ofNat 32 (0x11 * 2 ^ 24 + cw)

/-- `ECC.RUN` (R128): absorbs positions `ECC_COUNT` to `S.NDATA - 1` in ascending order, after testing all of them; the
lowest invalid one is raised. With nothing left it changes nothing. -/
def Obligations.EccRunAbsorbsTheRest : Prop :=
  (∀ s : State, s.ready →
     (s.eccPhase = .absorb → (∀ i, s.eccCount ≤ i → i < s.snap.ndata → s.cwValid i = true) →
       ∃ t, exec .eccRun s = .next t ∧ t = { s with acc := t.acc, eccCount := s.snap.ndata } ∧
         ∀ j, t.accAt j =
           if j < s.snap.k then
             (((List.range' s.eccCount (s.snap.ndata - s.eccCount)).map s.cwAt).foldl
               (fun A cw => absorb A cw s.coeffs) s.accSlots).getD j 0
           else s.accAt j) ∧
     (s.eccPhase ≠ .absorb → exec .eccRun s = .next (s.raise (.sequence, 0) 0x12000000#32)) ∧
     (∀ i, s.eccPhase = .absorb → s.eccCount ≤ i → i < s.snap.ndata → s.cwValid i = false →
       (∀ j, s.eccCount ≤ j → j < i → s.cwValid j = true) →
       exec .eccRun s = .next (s.raise (.uninitRead, i) 0x12000000#32)) ∧
     (s.Inv → s.eccPhase = .absorb → s.eccCount = s.snap.ndata → exec .eccRun s = .next s)) ∧
  encode .eccRun = 0x12000000#32

/-- `ECC.RUN` is the `ECC.PUSH` of what the memory holds: pushing the valid codeword at position `ECC_COUNT` first and then
running gives the same state as running (derived in R128). -/
def Obligations.EccRunEqualsPushingWhatIsStored : Prop :=
  ∀ s : State, s.Inv → s.ready → s.eccPhase = .absorb → s.eccCount < s.snap.ndata → s.cwValid s.eccCount = true →
    (∀ i, s.eccCount ≤ i → i < s.snap.ndata → s.cwValid i = true) →
    ∃ t u, exec (.eccPush (s.cwAt s.eccCount).val) s = .next t ∧ exec .eccRun t = .next u ∧ exec .eccRun s = .next u

/-- `ECC.FIN` (R129): one negation of every slot, the correction codewords in reverse accumulator order; its two tests. -/
def Obligations.EccFinEmitsInReverseOrder : Prop :=
  (∀ s : State, s.ready →
     (s.eccPhase = .absorb → s.eccCount = s.snap.ndata → ∃ t, exec .eccFin s = .next t ∧
       t = { s with acc := t.acc, cw := t.cw, cwv := t.cwv, eccPhase := .done } ∧
       (∀ j, t.accAt j = if j < s.snap.k then negmod (s.accAt j) else s.accAt j) ∧
       (∀ i, i < s.snap.k → t.cwAt (s.snap.ndata + i) = t.accAt (s.snap.k - 1 - i) ∧
         t.cwValid (s.snap.ndata + i) = true) ∧
       ∀ i, i < s.snap.ndata ∨ s.snap.ndata + s.snap.k ≤ i → t.cwAt i = s.cwAt i ∧ t.cwValid i = s.cwValid i) ∧
     (s.eccPhase ≠ .absorb → exec .eccFin s = .next (s.raise (.sequence, 0) 0x13000000#32)) ∧
     (s.eccPhase = .absorb → s.eccCount ≠ s.snap.ndata →
       exec .eccFin s = .next (s.raise (.sequence, 2) 0x13000000#32))) ∧
  encode .eccFin = 0x13000000#32

/-- `ECC.RDACC` (R130): responds one slot; its two tests in order. -/
def Obligations.EccRdaccRespondsOneSlot : Prop :=
  (∀ (s : State) (j : Nat), s.ready →
     (s.eccPhase ≠ .idle → j < s.snap.k →
       exec (.eccRdacc j) s = .next { s with rsp := s.rsp ++ [BitVec.ofNat 32 (s.accAt j).val] }) ∧
     (s.eccPhase = .idle → exec (.eccRdacc j) s = .next (s.raise (.sequence, 0) (encode (.eccRdacc j)))) ∧
     (s.eccPhase ≠ .idle → s.snap.k ≤ j →
       exec (.eccRdacc j) s = .next (s.raise (.indexRange, j) (encode (.eccRdacc j))))) ∧
  ∀ j : Nat, encode (.eccRdacc j) = BitVec.ofNat 32 (0x14 * 2 ^ 24 + j)

/-- `ECC.CHK` (R131): recomputes the remainder over data and correction codewords from zero, with no negation, and responds
whether it is all zero; its tests. In a sound state the second test cannot fail. -/
def Obligations.EccChkRespondsWhetherTheResidueIsZero : Prop :=
  (∀ s : State, s.ready →
     (s.eccPhase = .done → (s.Inv ∨ ∀ i, i < s.snap.ndata + s.snap.k → s.cwValid i = true) →
       ∃ t, exec .eccChk s = .next t ∧ t = { s with acc := t.acc, eccPhase := .checked, rsp := t.rsp } ∧
         (∀ j, t.accAt j =
           if j < s.snap.k then
             (((List.range (s.snap.ndata + s.snap.k)).map s.cwAt).foldl (fun A cw => absorb A cw s.coeffs)
               (List.replicate s.snap.k 0)).getD j 0
           else s.accAt j) ∧
         t.rsp = s.rsp ++ [if ∀ j, j < s.snap.k → t.accAt j = 0 then 1#32 else 0#32]) ∧
     (s.eccPhase ≠ .done → exec .eccChk s = .next (s.raise (.sequence, 0) 0x15000000#32)) ∧
     (∀ i, s.eccPhase = .done → i < s.snap.ndata + s.snap.k → s.cwValid i = false →
       (∀ j, j < i → s.cwValid j = true) → exec .eccChk s = .next (s.raise (.uninitRead, i) 0x15000000#32))) ∧
  encode .eccChk = 0x15000000#32

/-- The sum check (R132): for every content of the coefficient ROM, every sound open session and every data array of the
session's length, after `ECC.START`, the pushes and `ECC.FIN`, an `ECC.CHK` responds 1. -/
def Obligations.SumCheckAlwaysHolds : Prop :=
  ∀ (s : State) (data : List Nat), s.Inv → s.ready → data.length = s.snap.ndata → (∀ v ∈ data, v ≤ 928) →
    ∃ t, execList (.eccStart :: pseudoPushcw data ++ [.eccFin, .eccChk]) s = .next t ∧ t.rsp = s.rsp ++ [1#32]

/-! The codeword memory. -/

/-- `CW.WR` (R150): one entry and its valid bit; the codeword is tested before the index. -/
def Obligations.CwWrWritesOneEntry : Prop :=
  (∀ (s : State) (idx cw : Nat), s.ready →
     (cw ≤ 928 → idx < s.snap.ndata + s.snap.k → ∃ t, exec (.cwWr idx cw) s = .next t ∧
       t = { s with cw := t.cw, cwv := t.cwv } ∧ (t.cwAt idx).val = cw ∧ t.cwValid idx = true ∧
       ∀ i, i ≠ idx → t.cwAt i = s.cwAt i ∧ t.cwValid i = s.cwValid i) ∧
     (928 < cw → exec (.cwWr idx cw) s = .next (s.raise (.codewordRange, cw) (encode (.cwWr idx cw)))) ∧
     (cw ≤ 928 → s.snap.ndata + s.snap.k ≤ idx →
       exec (.cwWr idx cw) s = .next (s.raise (.indexRange, idx) (encode (.cwWr idx cw))))) ∧
  ∀ idx cw : Nat, encode (.cwWr idx cw) = BitVec.ofNat 32 (0x20 * 2 ^ 24 + idx * 2 ^ 12 + cw)

/-- `CW.RD` (R151): responds one valid entry; its two tests in order. -/
def Obligations.CwRdRespondsAValidEntry : Prop :=
  (∀ (s : State) (idx : Nat), s.ready →
     (idx < s.snap.ndata + s.snap.k → s.cwValid idx = true →
       exec (.cwRd idx) s = .next { s with rsp := s.rsp ++ [BitVec.ofNat 32 (s.cwAt idx).val] }) ∧
     (s.snap.ndata + s.snap.k ≤ idx →
       exec (.cwRd idx) s = .next (s.raise (.indexRange, idx) (encode (.cwRd idx)))) ∧
     (idx < s.snap.ndata + s.snap.k → s.cwValid idx = false →
       exec (.cwRd idx) s = .next (s.raise (.uninitRead, idx) (encode (.cwRd idx))))) ∧
  ∀ idx : Nat, encode (.cwRd idx) = BitVec.ofNat 32 (0x21 * 2 ^ 24 + idx)

/-! Packed bit buffers. -/

/-- Bit placement in the frame memory, by storage words (R62): bit `i` is bit `i mod 32` of word `i div 32`, and writing it
changes that bit of that word. The model stores byte lanes (assumption log 6). -/
def Obligations.BitPlacementInStorageWords : Prop :=
  ∀ (fb : Memory Byte) (i w : Nat) (b : Bool),
    fbBit fb i = (fbWord fb (i / 32)).getLsbD (i % 32) ∧
    fbWord (fbSetBit fb i b) w =
      if w = i / 32 then (fbWord fb w &&& ~~~(1#32 <<< (i % 32))) ||| (BitVec.ofNat 32 b.toNat <<< (i % 32))
      else fbWord fb w

/-- `PB.CLR` and `PB.FILL` write all 32 bits of `PB`, slack included, and make it valid (R161, R162). -/
def Obligations.PbClrAndFillWriteTheWholeWord : Prop :=
  (∀ s : State, s.ready →
     exec .pbClr s = .next { s with pb := 0x00000000#32, pbValid := true } ∧
     exec .pbFill s = .next { s with pb := 0xFFFFFFFF#32, pbValid := true }) ∧
  encode .pbClr = 0x30000000#32 ∧
  encode .pbFill = 0x31000000#32

/-- `PB.SETB` and `PB.CLRB` write one bit, slack bits 17..31 like any other (R164, R165); their two tests in order. -/
def Obligations.PbSetbAndClrbWriteOneBit : Prop :=
  (∀ (s : State) (i : Nat) (c : Instr) (v : Bool), s.ready → (c = .pbSetb i ∧ v = true) ∨ (c = .pbClrb i ∧ v = false) →
     (s.pbValid = true → i < 32 → ∃ t, exec c s = .next t ∧ t = { s with pb := t.pb } ∧
       ∀ j, t.pb.getLsbD j = if j = i then v else s.pb.getLsbD j) ∧
     (s.pbValid = false → exec c s = .next (s.raise (.uninitRead, 0) (encode c))) ∧
     (s.pbValid = true → 32 ≤ i → exec c s = .next (s.raise (.indexRange, i) (encode c)))) ∧
  (∀ i : Nat, encode (.pbSetb i) = BitVec.ofNat 32 (0x33 * 2 ^ 24 + i)) ∧
  ∀ i : Nat, encode (.pbClrb i) = BitVec.ofNat 32 (0x34 * 2 ^ 24 + i)

/-- `PB.ANDI` keeps exactly the bits of the zero-extended mask, so bits 24..31 always become 0 (R166). -/
def Obligations.PbAndiKeepsTheMaskedBits : Prop :=
  (∀ (s : State) (mask : Nat), s.ready → mask < 2 ^ 24 →
     (s.pbValid = true → ∃ t, exec (.pbAndi mask) s = .next t ∧ t = { s with pb := t.pb } ∧
       (∀ j, t.pb.getLsbD j = (s.pb.getLsbD j && mask.testBit j)) ∧ ∀ j, 24 ≤ j → t.pb.getLsbD j = false) ∧
     (s.pbValid = false → exec (.pbAndi mask) s = .next (s.raise (.uninitRead, 0) (encode (.pbAndi mask))))) ∧
  ∀ mask : Nat, encode (.pbAndi mask) = BitVec.ofNat 32 (0x35 * 2 ^ 24 + mask)

/-- `PB.GETB` responds the stored bit, slack included, and `PB.BYTE` the byte with its bit order reversed (R163, R168, R64);
their two tests in order. -/
def Obligations.PbGetbAndByteRespondStoredBits : Prop :=
  (∀ (s : State) (i : Nat), s.ready →
     (s.pbValid = true → i < 32 →
       exec (.pbGetb i) s = .next { s with rsp := s.rsp ++ [if s.pb.getLsbD i then 1#32 else 0#32] }) ∧
     (s.pbValid = false → exec (.pbGetb i) s = .next (s.raise (.uninitRead, 0) (encode (.pbGetb i)))) ∧
     (s.pbValid = true → 32 ≤ i → exec (.pbGetb i) s = .next (s.raise (.indexRange, i) (encode (.pbGetb i)))) ∧
     (s.pbValid = true → i < 4 → ∃ v, exec (.pbByte i) s = .next { s with rsp := s.rsp ++ [BitVec.ofNat 32 v] } ∧
       v < 256 ∧ ∀ t, t < 8 → v.testBit (7 - t) = s.pb.getLsbD (8 * i + t)) ∧
     (s.pbValid = false → exec (.pbByte i) s = .next (s.raise (.uninitRead, 0) (encode (.pbByte i)))) ∧
     (s.pbValid = true → 4 ≤ i → exec (.pbByte i) s = .next (s.raise (.indexRange, i) (encode (.pbByte i))))) ∧
  (∀ i : Nat, encode (.pbGetb i) = BitVec.ofNat 32 (0x32 * 2 ^ 24 + i)) ∧
  ∀ i : Nat, encode (.pbByte i) = BitVec.ofNat 32 (0x36 * 2 ^ 24 + i)

/-- `FB.CLR`, `FB.FILL` and `GRID.INIT` write the allocated words, row slack included, and no word at or above `FB_USED`
(R169, R170, R190). -/
def Obligations.BulkWritesCoverTheAllocatedWords : Prop :=
  (∀ s : State, s.ready →
     (s.gridValid = true → ∃ t, exec .fbClr s = .next t ∧ t = { s with fb := t.fb } ∧
       ∀ w, fbWord t.fb w = if w < s.geom.fbUsed then 0x00000000#32 else fbWord s.fb w) ∧
     (s.gridValid = true → ∃ t, exec .fbFill s = .next t ∧ t = { s with fb := t.fb } ∧
       ∀ w, fbWord t.fb w = if w < s.geom.fbUsed then 0xFFFFFFFF#32 else fbWord s.fb w) ∧
     (s.gridValid = false →
       exec .fbClr s = .next (s.raise (.sequence, 3) 0x40000000#32) ∧
       exec .fbFill s = .next (s.raise (.sequence, 3) 0x41000000#32)) ∧
     ∃ t, exec .gridInit s = .next t ∧ t = { s with fb := t.fb, gridValid := true } ∧
       ∀ w, fbWord t.fb w = if w < s.geom.fbUsed then 0x00000000#32 else fbWord s.fb w) ∧
  encode .fbClr = 0x40000000#32 ∧
  encode .fbFill = 0x41000000#32 ∧
  encode .gridInit = 0x50000000#32

/-- `FB.SETB` and `FB.CLRB` write one bit of the allocated storage, row slack like any other, and no other bit (R172, R173);
their two tests in order. -/
def Obligations.FbSetbAndClrbWriteOneBit : Prop :=
  (∀ (s : State) (i : Nat) (c : Instr) (v : Bool), s.ready → (c = .fbSetb i ∧ v = true) ∨ (c = .fbClrb i ∧ v = false) →
     (s.gridValid = true → i < s.geom.gridAW * s.geom.gridH → ∃ t, exec c s = .next t ∧ t = { s with fb := t.fb } ∧
       ∀ j, fbBit t.fb j = if j = i then v else fbBit s.fb j) ∧
     (s.gridValid = false → exec c s = .next (s.raise (.sequence, 3) (encode c))) ∧
     (s.gridValid = true → s.geom.gridAW * s.geom.gridH ≤ i → exec c s = .next (s.raise (.indexRange, i) (encode c)))) ∧
  (∀ i : Nat, encode (.fbSetb i) = BitVec.ofNat 32 (0x43 * 2 ^ 24 + i)) ∧
  ∀ i : Nat, encode (.fbClrb i) = BitVec.ofNat 32 (0x44 * 2 ^ 24 + i)

/-- `FB.GETB` responds the stored bit and `FB.BYTE` the byte with its bit order reversed (R171, R174, R64); their two tests
in order. -/
def Obligations.FbGetbAndByteRespondStoredBits : Prop :=
  (∀ (s : State) (i : Nat), s.ready →
     (s.gridValid = true → i < s.geom.gridAW * s.geom.gridH →
       exec (.fbGetb i) s = .next { s with rsp := s.rsp ++ [if fbBit s.fb i then 1#32 else 0#32] }) ∧
     (s.gridValid = false →
       exec (.fbGetb i) s = .next (s.raise (.sequence, 3) (encode (.fbGetb i))) ∧
       exec (.fbByte i) s = .next (s.raise (.sequence, 3) (encode (.fbByte i)))) ∧
     (s.gridValid = true → s.geom.gridAW * s.geom.gridH ≤ i →
       exec (.fbGetb i) s = .next (s.raise (.indexRange, i) (encode (.fbGetb i)))) ∧
     (s.gridValid = true → i < s.geom.gridAW * s.geom.gridH / 8 →
       ∃ v, exec (.fbByte i) s = .next { s with rsp := s.rsp ++ [BitVec.ofNat 32 v] } ∧
         v < 256 ∧ ∀ t, t < 8 → v.testBit (7 - t) = fbBit s.fb (8 * i + t)) ∧
     (s.gridValid = true → s.geom.gridAW * s.geom.gridH / 8 ≤ i →
       exec (.fbByte i) s = .next (s.raise (.indexRange, i) (encode (.fbByte i))))) ∧
  (∀ i : Nat, encode (.fbGetb i) = BitVec.ofNat 32 (0x42 * 2 ^ 24 + i)) ∧
  ∀ i : Nat, encode (.fbByte i) = BitVec.ofNat 32 (0x46 * 2 ^ 24 + i)

/-! The pixel grid. -/

/-- `PX.SET` and `PX.CLR` write bit `y * GRID_AW + x` and no other, inside the logical width and height only (R65, R191,
R192); their three tests in order. -/
def Obligations.PxSetAndClrWriteOnePixel : Prop :=
  (∀ (s : State) (x y : Nat) (c : Instr) (v : Bool), s.ready →
     (c = .pxSet x y ∧ v = true) ∨ (c = .pxClr x y ∧ v = false) →
     (s.gridValid = true → x < s.geom.gridW → y < s.geom.gridH → ∃ t, exec c s = .next t ∧ t = { s with fb := t.fb } ∧
       ∀ j, fbBit t.fb j = if j = y * s.geom.gridAW + x then v else fbBit s.fb j) ∧
     (s.gridValid = false → exec c s = .next (s.raise (.sequence, 3) (encode c))) ∧
     (s.gridValid = true → s.geom.gridW ≤ x → exec c s = .next (s.raise (.indexRange, x) (encode c))) ∧
     (s.gridValid = true → x < s.geom.gridW → s.geom.gridH ≤ y →
       exec c s = .next (s.raise (.indexRange, y) (encode c)))) ∧
  (∀ x y : Nat, encode (.pxSet x y) = BitVec.ofNat 32 (0x51 * 2 ^ 24 + x * 2 ^ 12 + y)) ∧
  ∀ x y : Nat, encode (.pxClr x y) = BitVec.ofNat 32 (0x52 * 2 ^ 24 + x * 2 ^ 12 + y)

/-- `PX.GET` responds the pixel (R193); its three tests in order. -/
def Obligations.PxGetRespondsThePixel : Prop :=
  (∀ (s : State) (x y : Nat), s.ready →
     (s.gridValid = true → x < s.geom.gridW → y < s.geom.gridH →
       exec (.pxGet x y) s =
         .next { s with rsp := s.rsp ++ [if fbBit s.fb (y * s.geom.gridAW + x) then 1#32 else 0#32] }) ∧
     (s.gridValid = false → exec (.pxGet x y) s = .next (s.raise (.sequence, 3) (encode (.pxGet x y)))) ∧
     (s.gridValid = true → s.geom.gridW ≤ x →
       exec (.pxGet x y) s = .next (s.raise (.indexRange, x) (encode (.pxGet x y)))) ∧
     (s.gridValid = true → x < s.geom.gridW → s.geom.gridH ≤ y →
       exec (.pxGet x y) s = .next (s.raise (.indexRange, y) (encode (.pxGet x y))))) ∧
  ∀ x y : Nat, encode (.pxGet x y) = BitVec.ofNat 32 (0x53 * 2 ^ 24 + x * 2 ^ 12 + y)

/-- `GRID.RAWB` responds the byte of R67's stream (R194); its two tests in order. In a sound state the raw byte that holds
the eight pixels from (8 * b, y) on is byte `(GRID_H - 1 - y) * (GRID_AW / 8) + b` of the stream, leftmost pixel in the most
significant bit. -/
def Obligations.RawBytesRunFromTheBottomRow : Prop :=
  (∀ (s : State) (r : Nat), s.ready →
     (s.gridValid = true → r < s.geom.gridH * s.geom.gridAW / 8 →
       ∃ v, exec (.gridRawb r) s = .next { s with rsp := s.rsp ++ [BitVec.ofNat 32 v] } ∧ v < 256 ∧
         (∀ t, t < 8 → v.testBit (7 - t) =
           fbBit s.fb (8 * ((s.geom.gridH - 1 - r / (s.geom.gridAW / 8)) * (s.geom.gridAW / 8) +
             r % (s.geom.gridAW / 8)) + t)) ∧
         (s.Inv → ∀ y b t, y < s.geom.gridH → 8 * b < s.geom.gridAW → t < 8 →
           r = (s.geom.gridH - 1 - y) * (s.geom.gridAW / 8) + b →
           v.testBit (7 - t) = fbBit s.fb (y * s.geom.gridAW + (8 * b + t)))) ∧
     (s.gridValid = false → exec (.gridRawb r) s = .next (s.raise (.sequence, 3) (encode (.gridRawb r)))) ∧
     (s.gridValid = true → s.geom.gridH * s.geom.gridAW / 8 ≤ r →
       exec (.gridRawb r) s = .next (s.raise (.indexRange, r) (encode (.gridRawb r))))) ∧
  ∀ r : Nat, encode (.gridRawb r) = BitVec.ofNat 32 (0x54 * 2 ^ 24 + r)

/-! Patterns, row indicators, drawing. -/

/-- `PAT.LD`, `PAT.START` and `PAT.STOP` load a pattern reversed, so that buffer index `m` holds module `m`, with the slack
cleared (R210 to R213); `PAT.LD` tests the cluster before the codeword. -/
def Obligations.PatternLoadsReverseTheModules : Prop :=
  (∀ (s : State) (c v : Nat), s.ready →
     (∀ (i : Instr) (p : Pattern),
       (i = .patLd c v ∧ c ≤ 2 ∧ v ≤ 928 ∧ p = s.patAt c v) ∨ (i = .patStart ∧ p = s.inst.startPattern) ∨
         (i = .patStop ∧ p = s.inst.stopPattern) →
       ∃ t, exec i s = .next t ∧ t = { s with pb := t.pb, pbValid := true } ∧
         (∀ m, m < 17 → t.pb.getLsbD m = p.getLsbD (16 - m)) ∧ ∀ m, 17 ≤ m → t.pb.getLsbD m = false) ∧
     (2 < c → exec (.patLd c v) s = .next (s.raise (.indexRange, c) (encode (.patLd c v)))) ∧
     (c ≤ 2 → 928 < v → exec (.patLd c v) s = .next (s.raise (.codewordRange, v) (encode (.patLd c v))))) ∧
  (∀ c v : Nat, encode (.patLd c v) = BitVec.ofNat 32 (0x60 * 2 ^ 24 + c * 2 ^ 12 + v)) ∧
  encode .patStart = 0x61000000#32 ∧
  encode .patStop = 0x62000000#32

/-- `IND.L` and `IND.R` respond the row indicator values of R214, and write nothing (R216, R217); a row at or beyond
`S.ROWS` raises `INDEX_RANGE`. -/
def Obligations.IndicatorsFollowTheFormula : Prop :=
  (∀ (s : State) (row : Nat), s.ready →
     let x1 := (s.snap.rows - 1) / 3
     let x2 := s.snap.level * 3 + (s.snap.rows - 1) % 3
     let x3 := s.snap.dcols - 1
     let g := row / 3 * 30
     (row < s.snap.rows →
       ∃ l r, exec (.indL row) s = .next { s with rsp := s.rsp ++ [BitVec.ofNat 32 l] } ∧
         exec (.indR row) s = .next { s with rsp := s.rsp ++ [BitVec.ofNat 32 r] } ∧
         (row % 3 = 0 → l = g + x1 ∧ r = g + x3) ∧ (row % 3 = 1 → l = g + x2 ∧ r = g + x1) ∧
         (row % 3 = 2 → l = g + x3 ∧ r = g + x2)) ∧
     (s.snap.rows ≤ row →
       exec (.indL row) s = .next (s.raise (.indexRange, row) (encode (.indL row))) ∧
       exec (.indR row) s = .next (s.raise (.indexRange, row) (encode (.indR row))))) ∧
  (∀ row : Nat, encode (.indL row) = BitVec.ofNat 32 (0x63 * 2 ^ 24 + row)) ∧
  ∀ row : Nat, encode (.indR row) = BitVec.ofNat 32 (0x64 * 2 ^ 24 + row)

/-- In a sound session every row indicator value is in 0..899, so it always indexes `PAT` (R215). -/
def Obligations.IndicatorValuesIndexThePatternTable : Prop :=
  ∀ (s : State) (row : Nat), s.Inv → s.session = true → row < s.snap.rows →
    s.snap.left row ≤ 899 ∧ s.snap.right row ≤ 899

/-- `DRAW.BAR` and `DRAW.SPC` write their value to the rectangle of R218 and to no other bit (R219, R220); their three tests
in order. -/
def Obligations.DrawBarAndSpcWriteOneModule : Prop :=
  (∀ (s : State) (row m : Nat) (c : Instr) (v : Bool), s.ready →
     (c = .drawBar row m ∧ v = true) ∨ (c = .drawSpc row m ∧ v = false) →
     (s.gridValid = true → row < s.snap.rows → m < s.geom.symCols → ∃ t, exec c s = .next t ∧ t = { s with fb := t.fb } ∧
       (∀ dx dy, dx < s.snap.modw → dy < s.snap.modw * s.snap.rhm →
         fbBit t.fb (Claims.moduleBit s row m dx dy) = v) ∧
       ∀ j, (∀ dx dy, dx < s.snap.modw → dy < s.snap.modw * s.snap.rhm → j ≠ Claims.moduleBit s row m dx dy) →
         fbBit t.fb j = fbBit s.fb j) ∧
     (s.gridValid = false → exec c s = .next (s.raise (.sequence, 3) (encode c))) ∧
     (s.gridValid = true → s.snap.rows ≤ row → exec c s = .next (s.raise (.indexRange, row) (encode c))) ∧
     (s.gridValid = true → row < s.snap.rows → s.geom.symCols ≤ m →
       exec c s = .next (s.raise (.indexRange, m) (encode c)))) ∧
  (∀ row m : Nat, encode (.drawBar row m) = BitVec.ofNat 32 (0x65 * 2 ^ 24 + row * 2 ^ 12 + m)) ∧
  ∀ row m : Nat, encode (.drawSpc row m) = BitVec.ofNat 32 (0x66 * 2 ^ 24 + row * 2 ^ 12 + m)

/-- In a sound session every pixel of a module lies inside the symbol area, hence inside the allocated frame (derived in
R218, R193): none of `DRAW.BAR`, `DRAW.SPC`, `DRAW.PB`, `RENDER.ROW` and `RENDER` changes a pixel of the quiet zone, a bit of
row slack or a bit above the grid. -/
def Obligations.ModulesStayInsideTheSymbolArea : Prop :=
  (∀ (i : Instr) (s t : State) (x y : Nat), s.Inv →
    ((∃ r m, i = .drawBar r m) ∨ (∃ r m, i = .drawSpc r m) ∨ (∃ r slot, i = .drawPb r slot) ∨ (∃ r, i = .renderRow r) ∨
      i = .render) →
    exec i s = .next t → x < s.geom.gridAW →
    x < s.snap.margin ∨ s.geom.gridW - s.snap.margin ≤ x ∨ y < s.snap.margin ∨ s.geom.gridH - s.snap.margin ≤ y →
    fbBit t.fb (y * s.geom.gridAW + x) = fbBit s.fb (y * s.geom.gridAW + x)) ∧
  ∀ (s : State) (row m dx dy : Nat), s.Inv → s.session = true → row < s.snap.rows → m < s.geom.symCols →
    dx < s.snap.modw → dy < s.snap.modw * s.snap.rhm →
    ∃ x y, Claims.moduleBit s row m dx dy = y * s.geom.gridAW + x ∧
      s.snap.margin ≤ x ∧ x < s.geom.gridW - s.snap.margin ∧ s.snap.margin ≤ y ∧ y < s.geom.gridH - s.snap.margin ∧
      Claims.moduleBit s row m dx dy < 32 * s.geom.fbUsed

/-- `DRAW.PB` draws the 17 logical bits of the pattern buffer at a slot, and no other bit of `FB` (R221); its four tests in
order. -/
def Obligations.DrawPbDrawsSeventeenModules : Prop :=
  (∀ (s : State) (row slot : Nat), s.ready →
     (s.gridValid = true → s.pbValid = true → row < s.snap.rows → slot < s.snap.dcols + 4 →
       ∃ t, exec (.drawPb row slot) s = .next t ∧ t = { s with fb := t.fb } ∧
         (s.Inv → ∀ m dx dy, m < 17 → dx < s.snap.modw → dy < s.snap.modw * s.snap.rhm →
           fbBit t.fb (Claims.moduleBit s row (slot * 17 + m) dx dy) = s.pb.getLsbD m) ∧
         ∀ j, (∀ m dx dy, m < 17 → dx < s.snap.modw → dy < s.snap.modw * s.snap.rhm →
           j ≠ Claims.moduleBit s row (slot * 17 + m) dx dy) → fbBit t.fb j = fbBit s.fb j) ∧
     (s.gridValid = false → exec (.drawPb row slot) s = .next (s.raise (.sequence, 3) (encode (.drawPb row slot)))) ∧
     (s.gridValid = true → s.pbValid = false →
       exec (.drawPb row slot) s = .next (s.raise (.uninitRead, 0) (encode (.drawPb row slot)))) ∧
     (s.gridValid = true → s.pbValid = true → s.snap.rows ≤ row →
       exec (.drawPb row slot) s = .next (s.raise (.indexRange, row) (encode (.drawPb row slot)))) ∧
     (s.gridValid = true → s.pbValid = true → row < s.snap.rows → s.snap.dcols + 4 ≤ slot →
       exec (.drawPb row slot) s = .next (s.raise (.indexRange, slot) (encode (.drawPb row slot))))) ∧
  ∀ row slot : Nat, encode (.drawPb row slot) = BitVec.ofNat 32 (0x67 * 2 ^ 24 + row * 2 ^ 12 + slot)

/-- `RENDER.ROW` draws the row of R222, every module set or clear, and no other bit of `FB`; it leaves the stop pattern in
`PB` (R222, R223, R333); its three tests in order, before any pixel. -/
def Obligations.RenderRowDrawsTheRow : Prop :=
  (∀ (s : State) (row : Nat), s.ready →
     (s.gridValid = true → row < s.snap.rows → (∀ c, c < s.snap.dcols → s.cwValid (row * s.snap.dcols + c) = true) →
       ∃ t, exec (.renderRow row) s = .next t ∧ t = { s with fb := t.fb, pb := t.pb, pbValid := true } ∧
         (∀ m, m < 32 → t.pb.getLsbD m = (decide (m < 17) && s.inst.stopPattern.getLsbD (16 - m))) ∧
         (s.Inv → ∀ m dx dy, m < s.geom.symCols → dx < s.snap.modw → dy < s.snap.modw * s.snap.rhm →
           fbBit t.fb (Claims.moduleBit s row m dx dy) = Claims.rowModule s row m) ∧
         (s.Inv → ∀ j, (∀ m dx dy, m < s.geom.symCols → dx < s.snap.modw → dy < s.snap.modw * s.snap.rhm →
           j ≠ Claims.moduleBit s row m dx dy) → fbBit t.fb j = fbBit s.fb j)) ∧
     (s.gridValid = false → exec (.renderRow row) s = .next (s.raise (.sequence, 3) (encode (.renderRow row)))) ∧
     (s.gridValid = true → s.snap.rows ≤ row →
       exec (.renderRow row) s = .next (s.raise (.indexRange, row) (encode (.renderRow row)))) ∧
     (∀ c, s.gridValid = true → row < s.snap.rows → c < s.snap.dcols → s.cwValid (row * s.snap.dcols + c) = false →
       (∀ d, d < c → s.cwValid (row * s.snap.dcols + d) = true) →
       exec (.renderRow row) s = .next (s.raise (.uninitRead, row * s.snap.dcols + c) (encode (.renderRow row))))) ∧
  ∀ row : Nat, encode (.renderRow row) = BitVec.ofNat 32 (0x68 * 2 ^ 24 + row)

/-- `RENDER.ROW` equals its command sequence: `PAT.START`, `DRAW.PB row, 0`, `PAT.LD` and `DRAW.PB` of the left indicator, of
each codeword and of the right indicator, `PAT.STOP`, `DRAW.PB`, and `DRAW.BAR` of the trailing module (derived in R223). -/
def Obligations.RenderRowEqualsItsCommandSequence : Prop :=
  ∀ (s : State) (row : Nat), s.Inv → s.ready → s.gridValid = true → row < s.snap.rows →
    (∀ c, c < s.snap.dcols → s.cwValid (row * s.snap.dcols + c) = true) →
    ∃ t, exec (.renderRow row) s = .next t ∧
      execList
        ([.patStart, .drawPb row 0, .patLd (row % 3) (s.snap.left row), .drawPb row 1] ++
          ((List.range s.snap.dcols).flatMap fun c =>
            [.patLd (row % 3) (s.cwAt (row * s.snap.dcols + c)).val, .drawPb row (2 + c)]) ++
          [.patLd (row % 3) (s.snap.right row), .drawPb row (s.snap.dcols + 2), .patStop,
            .drawPb row (s.snap.dcols + 3), .drawBar row (s.geom.symCols - 1)]) s = .next t

/-- `RENDER` draws every symbol row, and leaves the quiet zone, the slack and everything above the grid as they were; its two
tests come before any pixel (R224, R226, R334). -/
def Obligations.RenderDrawsTheSymbol : Prop :=
  (∀ s : State, s.ready →
     (s.gridValid = true → (∀ p, p < s.snap.rows * s.snap.dcols → s.cwValid p = true) →
       ∃ t, exec .render s = .next t ∧ t = { s with fb := t.fb, pb := t.pb, pbValid := true } ∧
         (∀ m, m < 32 → t.pb.getLsbD m = (decide (m < 17) && s.inst.stopPattern.getLsbD (16 - m))) ∧
         (s.Inv → ∀ row m dx dy, row < s.snap.rows → m < s.geom.symCols → dx < s.snap.modw →
           dy < s.snap.modw * s.snap.rhm →
           fbBit t.fb (Claims.moduleBit s row m dx dy) = Claims.rowModule s row m) ∧
         (s.Inv → ∀ x y, x < s.geom.gridAW →
           x < s.snap.margin ∨ s.geom.gridW - s.snap.margin ≤ x ∨ y < s.snap.margin ∨
             s.geom.gridH - s.snap.margin ≤ y →
           fbBit t.fb (y * s.geom.gridAW + x) = fbBit s.fb (y * s.geom.gridAW + x))) ∧
     (s.gridValid = false → exec .render s = .next (s.raise (.sequence, 3) 0x69000000#32)) ∧
     (∀ p, s.gridValid = true → p < s.snap.rows * s.snap.dcols → s.cwValid p = false →
       (∀ q, q < p → s.cwValid q = true) → exec .render s = .next (s.raise (.uninitRead, p) 0x69000000#32))) ∧
  encode .render = 0x69000000#32

/-- `RENDER` equals `RENDER.ROW 0` to `RENDER.ROW S.ROWS-1` when every codeword is valid, and a second `RENDER` changes
nothing (R224). -/
def Obligations.RenderEqualsItsRowsAndIsIdempotent : Prop :=
  ∀ s : State, s.Inv → s.ready → s.gridValid = true → (∀ p, p < s.snap.rows * s.snap.dcols → s.cwValid p = true) →
    ∃ t, exec .render s = .next t ∧ execList ((List.range s.snap.rows).map .renderRow) s = .next t ∧
      exec .render t = .next t
end

