-- ==== Sys2Proof/Laws/State.lean ====
section
/-! SUPPORT. One lemma per field of State per shared update: what the update leaves in the field. -/

namespace Sys2Proof.Machine

/-! `State.respond` -/

@[simp] theorem State.respond_inst (s : State) (v : Word) : (s.respond v).inst = s.inst := rfl
@[simp] theorem State.respond_cfg (s : State) (v : Word) : (s.respond v).cfg = s.cfg := rfl
@[simp] theorem State.respond_snap (s : State) (v : Word) : (s.respond v).snap = s.snap := rfl
@[simp] theorem State.respond_geom (s : State) (v : Word) : (s.respond v).geom = s.geom := rfl
@[simp] theorem State.respond_session (s : State) (v : Word) : (s.respond v).session = s.session := rfl
@[simp] theorem State.respond_eccPhase (s : State) (v : Word) : (s.respond v).eccPhase = s.eccPhase := rfl
@[simp] theorem State.respond_gridValid (s : State) (v : Word) : (s.respond v).gridValid = s.gridValid := rfl
@[simp] theorem State.respond_pbValid (s : State) (v : Word) : (s.respond v).pbValid = s.pbValid := rfl
@[simp] theorem State.respond_faulted (s : State) (v : Word) : (s.respond v).faulted = s.faulted := rfl
@[simp] theorem State.respond_err (s : State) (v : Word) : (s.respond v).err = s.err := rfl
@[simp] theorem State.respond_errInfo (s : State) (v : Word) : (s.respond v).errInfo = s.errInfo := rfl
@[simp] theorem State.respond_errCmd (s : State) (v : Word) : (s.respond v).errCmd = s.errCmd := rfl
@[simp] theorem State.respond_eccCount (s : State) (v : Word) : (s.respond v).eccCount = s.eccCount := rfl
@[simp] theorem State.respond_acc (s : State) (v : Word) : (s.respond v).acc = s.acc := rfl
@[simp] theorem State.respond_cw (s : State) (v : Word) : (s.respond v).cw = s.cw := rfl
@[simp] theorem State.respond_cwv (s : State) (v : Word) : (s.respond v).cwv = s.cwv := rfl
@[simp] theorem State.respond_pb (s : State) (v : Word) : (s.respond v).pb = s.pb := rfl
@[simp] theorem State.respond_fb (s : State) (v : Word) : (s.respond v).fb = s.fb := rfl
@[simp] theorem State.respond_rsp (s : State) (v : Word) : (s.respond v).rsp = s.rsp ++ [v] := rfl
@[simp] theorem State.respond_port (s : State) (v : Word) : (s.respond v).port = s.port := rfl

/-! `State.respondNat` -/

@[simp] theorem State.respondNat_inst (s : State) (v : Nat) : (s.respondNat v).inst = s.inst := rfl
@[simp] theorem State.respondNat_cfg (s : State) (v : Nat) : (s.respondNat v).cfg = s.cfg := rfl
@[simp] theorem State.respondNat_snap (s : State) (v : Nat) : (s.respondNat v).snap = s.snap := rfl
@[simp] theorem State.respondNat_geom (s : State) (v : Nat) : (s.respondNat v).geom = s.geom := rfl
@[simp] theorem State.respondNat_session (s : State) (v : Nat) : (s.respondNat v).session = s.session := rfl
@[simp] theorem State.respondNat_eccPhase (s : State) (v : Nat) : (s.respondNat v).eccPhase = s.eccPhase := rfl
@[simp] theorem State.respondNat_gridValid (s : State) (v : Nat) : (s.respondNat v).gridValid = s.gridValid := rfl
@[simp] theorem State.respondNat_pbValid (s : State) (v : Nat) : (s.respondNat v).pbValid = s.pbValid := rfl
@[simp] theorem State.respondNat_faulted (s : State) (v : Nat) : (s.respondNat v).faulted = s.faulted := rfl
@[simp] theorem State.respondNat_err (s : State) (v : Nat) : (s.respondNat v).err = s.err := rfl
@[simp] theorem State.respondNat_errInfo (s : State) (v : Nat) : (s.respondNat v).errInfo = s.errInfo := rfl
@[simp] theorem State.respondNat_errCmd (s : State) (v : Nat) : (s.respondNat v).errCmd = s.errCmd := rfl
@[simp] theorem State.respondNat_eccCount (s : State) (v : Nat) : (s.respondNat v).eccCount = s.eccCount := rfl
@[simp] theorem State.respondNat_acc (s : State) (v : Nat) : (s.respondNat v).acc = s.acc := rfl
@[simp] theorem State.respondNat_cw (s : State) (v : Nat) : (s.respondNat v).cw = s.cw := rfl
@[simp] theorem State.respondNat_cwv (s : State) (v : Nat) : (s.respondNat v).cwv = s.cwv := rfl
@[simp] theorem State.respondNat_pb (s : State) (v : Nat) : (s.respondNat v).pb = s.pb := rfl
@[simp] theorem State.respondNat_fb (s : State) (v : Nat) : (s.respondNat v).fb = s.fb := rfl
@[simp] theorem State.respondNat_rsp (s : State) (v : Nat) : (s.respondNat v).rsp = s.rsp ++ [BitVec.ofNat 32 v] := rfl
@[simp] theorem State.respondNat_port (s : State) (v : Nat) : (s.respondNat v).port = s.port := rfl

/-! `State.respondBit` -/

@[simp] theorem State.respondBit_inst (s : State) (b : Bool) : (s.respondBit b).inst = s.inst := rfl
@[simp] theorem State.respondBit_cfg (s : State) (b : Bool) : (s.respondBit b).cfg = s.cfg := rfl
@[simp] theorem State.respondBit_snap (s : State) (b : Bool) : (s.respondBit b).snap = s.snap := rfl
@[simp] theorem State.respondBit_geom (s : State) (b : Bool) : (s.respondBit b).geom = s.geom := rfl
@[simp] theorem State.respondBit_session (s : State) (b : Bool) : (s.respondBit b).session = s.session := rfl
@[simp] theorem State.respondBit_eccPhase (s : State) (b : Bool) : (s.respondBit b).eccPhase = s.eccPhase := rfl
@[simp] theorem State.respondBit_gridValid (s : State) (b : Bool) : (s.respondBit b).gridValid = s.gridValid := rfl
@[simp] theorem State.respondBit_pbValid (s : State) (b : Bool) : (s.respondBit b).pbValid = s.pbValid := rfl
@[simp] theorem State.respondBit_faulted (s : State) (b : Bool) : (s.respondBit b).faulted = s.faulted := rfl
@[simp] theorem State.respondBit_err (s : State) (b : Bool) : (s.respondBit b).err = s.err := rfl
@[simp] theorem State.respondBit_errInfo (s : State) (b : Bool) : (s.respondBit b).errInfo = s.errInfo := rfl
@[simp] theorem State.respondBit_errCmd (s : State) (b : Bool) : (s.respondBit b).errCmd = s.errCmd := rfl
@[simp] theorem State.respondBit_eccCount (s : State) (b : Bool) : (s.respondBit b).eccCount = s.eccCount := rfl
@[simp] theorem State.respondBit_acc (s : State) (b : Bool) : (s.respondBit b).acc = s.acc := rfl
@[simp] theorem State.respondBit_cw (s : State) (b : Bool) : (s.respondBit b).cw = s.cw := rfl
@[simp] theorem State.respondBit_cwv (s : State) (b : Bool) : (s.respondBit b).cwv = s.cwv := rfl
@[simp] theorem State.respondBit_pb (s : State) (b : Bool) : (s.respondBit b).pb = s.pb := rfl
@[simp] theorem State.respondBit_fb (s : State) (b : Bool) : (s.respondBit b).fb = s.fb := rfl
@[simp] theorem State.respondBit_rsp (s : State) (b : Bool) : (s.respondBit b).rsp = s.rsp ++ [BitVec.ofNat 32 b.toNat] := rfl
@[simp] theorem State.respondBit_port (s : State) (b : Bool) : (s.respondBit b).port = s.port := rfl

/-! `State.raise` -/

@[simp] theorem State.raise_inst (s : State) (r : Raised) (w : Word) : (s.raise r w).inst = s.inst := rfl
@[simp] theorem State.raise_cfg (s : State) (r : Raised) (w : Word) : (s.raise r w).cfg = s.cfg := rfl
@[simp] theorem State.raise_snap (s : State) (r : Raised) (w : Word) : (s.raise r w).snap = s.snap := rfl
@[simp] theorem State.raise_geom (s : State) (r : Raised) (w : Word) : (s.raise r w).geom = s.geom := rfl
@[simp] theorem State.raise_session (s : State) (r : Raised) (w : Word) : (s.raise r w).session = s.session := rfl
@[simp] theorem State.raise_eccPhase (s : State) (r : Raised) (w : Word) : (s.raise r w).eccPhase = s.eccPhase := rfl
@[simp] theorem State.raise_gridValid (s : State) (r : Raised) (w : Word) : (s.raise r w).gridValid = s.gridValid := rfl
@[simp] theorem State.raise_pbValid (s : State) (r : Raised) (w : Word) : (s.raise r w).pbValid = s.pbValid := rfl
@[simp] theorem State.raise_faulted (s : State) (r : Raised) (w : Word) : (s.raise r w).faulted = true := rfl
@[simp] theorem State.raise_err (s : State) (r : Raised) (w : Word) : (s.raise r w).err = r.1 := rfl
@[simp] theorem State.raise_errInfo (s : State) (r : Raised) (w : Word) : (s.raise r w).errInfo = BitVec.ofNat 16 r.2 := rfl
@[simp] theorem State.raise_errCmd (s : State) (r : Raised) (w : Word) : (s.raise r w).errCmd = w := rfl
@[simp] theorem State.raise_eccCount (s : State) (r : Raised) (w : Word) : (s.raise r w).eccCount = s.eccCount := rfl
@[simp] theorem State.raise_acc (s : State) (r : Raised) (w : Word) : (s.raise r w).acc = s.acc := rfl
@[simp] theorem State.raise_cw (s : State) (r : Raised) (w : Word) : (s.raise r w).cw = s.cw := rfl
@[simp] theorem State.raise_cwv (s : State) (r : Raised) (w : Word) : (s.raise r w).cwv = s.cwv := rfl
@[simp] theorem State.raise_pb (s : State) (r : Raised) (w : Word) : (s.raise r w).pb = s.pb := rfl
@[simp] theorem State.raise_fb (s : State) (r : Raised) (w : Word) : (s.raise r w).fb = s.fb := rfl
@[simp] theorem State.raise_rsp (s : State) (r : Raised) (w : Word) : (s.raise r w).rsp = s.rsp := rfl
@[simp] theorem State.raise_port (s : State) (r : Raised) (w : Word) : (s.raise r w).port = s.port := rfl

/-! `State.resetNow` -/

@[simp] theorem State.resetNow_inst (s : State) : (s.resetNow).inst = s.inst := rfl
@[simp] theorem State.resetNow_cfg (s : State) : (s.resetNow).cfg = State.reset.cfg := rfl
@[simp] theorem State.resetNow_snap (s : State) : (s.resetNow).snap = State.reset.snap := rfl
@[simp] theorem State.resetNow_geom (s : State) : (s.resetNow).geom = State.reset.geom := rfl
@[simp] theorem State.resetNow_session (s : State) : (s.resetNow).session = State.reset.session := rfl
@[simp] theorem State.resetNow_eccPhase (s : State) : (s.resetNow).eccPhase = State.reset.eccPhase := rfl
@[simp] theorem State.resetNow_gridValid (s : State) : (s.resetNow).gridValid = State.reset.gridValid := rfl
@[simp] theorem State.resetNow_pbValid (s : State) : (s.resetNow).pbValid = State.reset.pbValid := rfl
@[simp] theorem State.resetNow_faulted (s : State) : (s.resetNow).faulted = State.reset.faulted := rfl
@[simp] theorem State.resetNow_err (s : State) : (s.resetNow).err = State.reset.err := rfl
@[simp] theorem State.resetNow_errInfo (s : State) : (s.resetNow).errInfo = State.reset.errInfo := rfl
@[simp] theorem State.resetNow_errCmd (s : State) : (s.resetNow).errCmd = State.reset.errCmd := rfl
@[simp] theorem State.resetNow_eccCount (s : State) : (s.resetNow).eccCount = State.reset.eccCount := rfl
@[simp] theorem State.resetNow_acc (s : State) : (s.resetNow).acc = State.reset.acc := rfl
@[simp] theorem State.resetNow_cw (s : State) : (s.resetNow).cw = State.reset.cw := rfl
@[simp] theorem State.resetNow_cwv (s : State) : (s.resetNow).cwv = State.reset.cwv := rfl
@[simp] theorem State.resetNow_pb (s : State) : (s.resetNow).pb = State.reset.pb := rfl
@[simp] theorem State.resetNow_fb (s : State) : (s.resetNow).fb = State.reset.fb := rfl
@[simp] theorem State.resetNow_rsp (s : State) : (s.resetNow).rsp = s.rsp := rfl
@[simp] theorem State.resetNow_port (s : State) : (s.resetNow).port = s.port := rfl

/-! `State.openSession` -/

@[simp] theorem State.openSession_inst (s : State) (S : Snapshot) : (s.openSession S).inst = s.inst := rfl
@[simp] theorem State.openSession_cfg (s : State) (S : Snapshot) : (s.openSession S).cfg = s.cfg := rfl
@[simp] theorem State.openSession_snap (s : State) (S : Snapshot) : (s.openSession S).snap = S := rfl
@[simp] theorem State.openSession_geom (s : State) (S : Snapshot) : (s.openSession S).geom = Geometry.ofSnapshot S := rfl
@[simp] theorem State.openSession_session (s : State) (S : Snapshot) : (s.openSession S).session = true := rfl
@[simp] theorem State.openSession_eccPhase (s : State) (S : Snapshot) : (s.openSession S).eccPhase = .idle := rfl
@[simp] theorem State.openSession_gridValid (s : State) (S : Snapshot) : (s.openSession S).gridValid = false := rfl
@[simp] theorem State.openSession_pbValid (s : State) (S : Snapshot) : (s.openSession S).pbValid = false := rfl
@[simp] theorem State.openSession_faulted (s : State) (S : Snapshot) : (s.openSession S).faulted = s.faulted := rfl
@[simp] theorem State.openSession_err (s : State) (S : Snapshot) : (s.openSession S).err = s.err := rfl
@[simp] theorem State.openSession_errInfo (s : State) (S : Snapshot) : (s.openSession S).errInfo = s.errInfo := rfl
@[simp] theorem State.openSession_errCmd (s : State) (S : Snapshot) : (s.openSession S).errCmd = s.errCmd := rfl
@[simp] theorem State.openSession_eccCount (s : State) (S : Snapshot) : (s.openSession S).eccCount = 0 := rfl
@[simp] theorem State.openSession_acc (s : State) (S : Snapshot) : (s.openSession S).acc = s.acc := rfl
@[simp] theorem State.openSession_cw (s : State) (S : Snapshot) : (s.openSession S).cw = s.cw := rfl
@[simp] theorem State.openSession_cwv (s : State) (S : Snapshot) : (s.openSession S).cwv = [] := rfl
@[simp] theorem State.openSession_pb (s : State) (S : Snapshot) : (s.openSession S).pb = s.pb := rfl
@[simp] theorem State.openSession_fb (s : State) (S : Snapshot) : (s.openSession S).fb = s.fb := rfl
@[simp] theorem State.openSession_rsp (s : State) (S : Snapshot) : (s.openSession S).rsp = s.rsp := rfl
@[simp] theorem State.openSession_port (s : State) (S : Snapshot) : (s.openSession S).port = s.port := rfl

/-! `State.setAcc` -/

@[simp] theorem State.setAcc_inst (s : State) (A : List Codeword) : (s.setAcc A).inst = s.inst := rfl
@[simp] theorem State.setAcc_cfg (s : State) (A : List Codeword) : (s.setAcc A).cfg = s.cfg := rfl
@[simp] theorem State.setAcc_snap (s : State) (A : List Codeword) : (s.setAcc A).snap = s.snap := rfl
@[simp] theorem State.setAcc_geom (s : State) (A : List Codeword) : (s.setAcc A).geom = s.geom := rfl
@[simp] theorem State.setAcc_session (s : State) (A : List Codeword) : (s.setAcc A).session = s.session := rfl
@[simp] theorem State.setAcc_eccPhase (s : State) (A : List Codeword) : (s.setAcc A).eccPhase = s.eccPhase := rfl
@[simp] theorem State.setAcc_gridValid (s : State) (A : List Codeword) : (s.setAcc A).gridValid = s.gridValid := rfl
@[simp] theorem State.setAcc_pbValid (s : State) (A : List Codeword) : (s.setAcc A).pbValid = s.pbValid := rfl
@[simp] theorem State.setAcc_faulted (s : State) (A : List Codeword) : (s.setAcc A).faulted = s.faulted := rfl
@[simp] theorem State.setAcc_err (s : State) (A : List Codeword) : (s.setAcc A).err = s.err := rfl
@[simp] theorem State.setAcc_errInfo (s : State) (A : List Codeword) : (s.setAcc A).errInfo = s.errInfo := rfl
@[simp] theorem State.setAcc_errCmd (s : State) (A : List Codeword) : (s.setAcc A).errCmd = s.errCmd := rfl
@[simp] theorem State.setAcc_eccCount (s : State) (A : List Codeword) : (s.setAcc A).eccCount = s.eccCount := rfl
@[simp] theorem State.setAcc_acc (s : State) (A : List Codeword) : (s.setAcc A).acc = s.acc.writeList 0 0 A := rfl
@[simp] theorem State.setAcc_cw (s : State) (A : List Codeword) : (s.setAcc A).cw = s.cw := rfl
@[simp] theorem State.setAcc_cwv (s : State) (A : List Codeword) : (s.setAcc A).cwv = s.cwv := rfl
@[simp] theorem State.setAcc_pb (s : State) (A : List Codeword) : (s.setAcc A).pb = s.pb := rfl
@[simp] theorem State.setAcc_fb (s : State) (A : List Codeword) : (s.setAcc A).fb = s.fb := rfl
@[simp] theorem State.setAcc_rsp (s : State) (A : List Codeword) : (s.setAcc A).rsp = s.rsp := rfl
@[simp] theorem State.setAcc_port (s : State) (A : List Codeword) : (s.setAcc A).port = s.port := rfl

/-! `State.storeCws` -/

@[simp] theorem State.storeCws_inst (s : State) (lo : Nat) (vs : List Codeword) : (s.storeCws lo vs).inst = s.inst := rfl
@[simp] theorem State.storeCws_cfg (s : State) (lo : Nat) (vs : List Codeword) : (s.storeCws lo vs).cfg = s.cfg := rfl
@[simp] theorem State.storeCws_snap (s : State) (lo : Nat) (vs : List Codeword) : (s.storeCws lo vs).snap = s.snap := rfl
@[simp] theorem State.storeCws_geom (s : State) (lo : Nat) (vs : List Codeword) : (s.storeCws lo vs).geom = s.geom := rfl
@[simp] theorem State.storeCws_session (s : State) (lo : Nat) (vs : List Codeword) : (s.storeCws lo vs).session = s.session := rfl
@[simp] theorem State.storeCws_eccPhase (s : State) (lo : Nat) (vs : List Codeword) : (s.storeCws lo vs).eccPhase = s.eccPhase := rfl
@[simp] theorem State.storeCws_gridValid (s : State) (lo : Nat) (vs : List Codeword) : (s.storeCws lo vs).gridValid = s.gridValid := rfl
@[simp] theorem State.storeCws_pbValid (s : State) (lo : Nat) (vs : List Codeword) : (s.storeCws lo vs).pbValid = s.pbValid := rfl
@[simp] theorem State.storeCws_faulted (s : State) (lo : Nat) (vs : List Codeword) : (s.storeCws lo vs).faulted = s.faulted := rfl
@[simp] theorem State.storeCws_err (s : State) (lo : Nat) (vs : List Codeword) : (s.storeCws lo vs).err = s.err := rfl
@[simp] theorem State.storeCws_errInfo (s : State) (lo : Nat) (vs : List Codeword) : (s.storeCws lo vs).errInfo = s.errInfo := rfl
@[simp] theorem State.storeCws_errCmd (s : State) (lo : Nat) (vs : List Codeword) : (s.storeCws lo vs).errCmd = s.errCmd := rfl
@[simp] theorem State.storeCws_eccCount (s : State) (lo : Nat) (vs : List Codeword) : (s.storeCws lo vs).eccCount = s.eccCount := rfl
@[simp] theorem State.storeCws_acc (s : State) (lo : Nat) (vs : List Codeword) : (s.storeCws lo vs).acc = s.acc := rfl
@[simp] theorem State.storeCws_cw (s : State) (lo : Nat) (vs : List Codeword) : (s.storeCws lo vs).cw = s.cw.writeList 0 lo vs := rfl
@[simp] theorem State.storeCws_cwv (s : State) (lo : Nat) (vs : List Codeword) : (s.storeCws lo vs).cwv = s.cwv.writeList false lo (vs.map fun _ => true) := rfl
@[simp] theorem State.storeCws_pb (s : State) (lo : Nat) (vs : List Codeword) : (s.storeCws lo vs).pb = s.pb := rfl
@[simp] theorem State.storeCws_fb (s : State) (lo : Nat) (vs : List Codeword) : (s.storeCws lo vs).fb = s.fb := rfl
@[simp] theorem State.storeCws_rsp (s : State) (lo : Nat) (vs : List Codeword) : (s.storeCws lo vs).rsp = s.rsp := rfl
@[simp] theorem State.storeCws_port (s : State) (lo : Nat) (vs : List Codeword) : (s.storeCws lo vs).port = s.port := rfl

/-! `State.setPb` -/

@[simp] theorem State.setPb_inst (s : State) (v : Word) : (s.setPb v).inst = s.inst := rfl
@[simp] theorem State.setPb_cfg (s : State) (v : Word) : (s.setPb v).cfg = s.cfg := rfl
@[simp] theorem State.setPb_snap (s : State) (v : Word) : (s.setPb v).snap = s.snap := rfl
@[simp] theorem State.setPb_geom (s : State) (v : Word) : (s.setPb v).geom = s.geom := rfl
@[simp] theorem State.setPb_session (s : State) (v : Word) : (s.setPb v).session = s.session := rfl
@[simp] theorem State.setPb_eccPhase (s : State) (v : Word) : (s.setPb v).eccPhase = s.eccPhase := rfl
@[simp] theorem State.setPb_gridValid (s : State) (v : Word) : (s.setPb v).gridValid = s.gridValid := rfl
@[simp] theorem State.setPb_pbValid (s : State) (v : Word) : (s.setPb v).pbValid = true := rfl
@[simp] theorem State.setPb_faulted (s : State) (v : Word) : (s.setPb v).faulted = s.faulted := rfl
@[simp] theorem State.setPb_err (s : State) (v : Word) : (s.setPb v).err = s.err := rfl
@[simp] theorem State.setPb_errInfo (s : State) (v : Word) : (s.setPb v).errInfo = s.errInfo := rfl
@[simp] theorem State.setPb_errCmd (s : State) (v : Word) : (s.setPb v).errCmd = s.errCmd := rfl
@[simp] theorem State.setPb_eccCount (s : State) (v : Word) : (s.setPb v).eccCount = s.eccCount := rfl
@[simp] theorem State.setPb_acc (s : State) (v : Word) : (s.setPb v).acc = s.acc := rfl
@[simp] theorem State.setPb_cw (s : State) (v : Word) : (s.setPb v).cw = s.cw := rfl
@[simp] theorem State.setPb_cwv (s : State) (v : Word) : (s.setPb v).cwv = s.cwv := rfl
@[simp] theorem State.setPb_pb (s : State) (v : Word) : (s.setPb v).pb = v := rfl
@[simp] theorem State.setPb_fb (s : State) (v : Word) : (s.setPb v).fb = s.fb := rfl
@[simp] theorem State.setPb_rsp (s : State) (v : Word) : (s.setPb v).rsp = s.rsp := rfl
@[simp] theorem State.setPb_port (s : State) (v : Word) : (s.setPb v).port = s.port := rfl

/-! `State.fillFb` -/

@[simp] theorem State.fillFb_inst (s : State) (lane : Byte) : (s.fillFb lane).inst = s.inst := rfl
@[simp] theorem State.fillFb_cfg (s : State) (lane : Byte) : (s.fillFb lane).cfg = s.cfg := rfl
@[simp] theorem State.fillFb_snap (s : State) (lane : Byte) : (s.fillFb lane).snap = s.snap := rfl
@[simp] theorem State.fillFb_geom (s : State) (lane : Byte) : (s.fillFb lane).geom = s.geom := rfl
@[simp] theorem State.fillFb_session (s : State) (lane : Byte) : (s.fillFb lane).session = s.session := rfl
@[simp] theorem State.fillFb_eccPhase (s : State) (lane : Byte) : (s.fillFb lane).eccPhase = s.eccPhase := rfl
@[simp] theorem State.fillFb_gridValid (s : State) (lane : Byte) : (s.fillFb lane).gridValid = s.gridValid := rfl
@[simp] theorem State.fillFb_pbValid (s : State) (lane : Byte) : (s.fillFb lane).pbValid = s.pbValid := rfl
@[simp] theorem State.fillFb_faulted (s : State) (lane : Byte) : (s.fillFb lane).faulted = s.faulted := rfl
@[simp] theorem State.fillFb_err (s : State) (lane : Byte) : (s.fillFb lane).err = s.err := rfl
@[simp] theorem State.fillFb_errInfo (s : State) (lane : Byte) : (s.fillFb lane).errInfo = s.errInfo := rfl
@[simp] theorem State.fillFb_errCmd (s : State) (lane : Byte) : (s.fillFb lane).errCmd = s.errCmd := rfl
@[simp] theorem State.fillFb_eccCount (s : State) (lane : Byte) : (s.fillFb lane).eccCount = s.eccCount := rfl
@[simp] theorem State.fillFb_acc (s : State) (lane : Byte) : (s.fillFb lane).acc = s.acc := rfl
@[simp] theorem State.fillFb_cw (s : State) (lane : Byte) : (s.fillFb lane).cw = s.cw := rfl
@[simp] theorem State.fillFb_cwv (s : State) (lane : Byte) : (s.fillFb lane).cwv = s.cwv := rfl
@[simp] theorem State.fillFb_pb (s : State) (lane : Byte) : (s.fillFb lane).pb = s.pb := rfl
@[simp] theorem State.fillFb_fb (s : State) (lane : Byte) : (s.fillFb lane).fb = fbFillWords s.fb s.geom.fbUsed lane := rfl
@[simp] theorem State.fillFb_rsp (s : State) (lane : Byte) : (s.fillFb lane).rsp = s.rsp := rfl
@[simp] theorem State.fillFb_port (s : State) (lane : Byte) : (s.fillFb lane).port = s.port := rfl

/-! `State.putFbBit` -/

@[simp] theorem State.putFbBit_inst (s : State) (i : Nat) (b : Bool) : (s.putFbBit i b).inst = s.inst := rfl
@[simp] theorem State.putFbBit_cfg (s : State) (i : Nat) (b : Bool) : (s.putFbBit i b).cfg = s.cfg := rfl
@[simp] theorem State.putFbBit_snap (s : State) (i : Nat) (b : Bool) : (s.putFbBit i b).snap = s.snap := rfl
@[simp] theorem State.putFbBit_geom (s : State) (i : Nat) (b : Bool) : (s.putFbBit i b).geom = s.geom := rfl
@[simp] theorem State.putFbBit_session (s : State) (i : Nat) (b : Bool) : (s.putFbBit i b).session = s.session := rfl
@[simp] theorem State.putFbBit_eccPhase (s : State) (i : Nat) (b : Bool) : (s.putFbBit i b).eccPhase = s.eccPhase := rfl
@[simp] theorem State.putFbBit_gridValid (s : State) (i : Nat) (b : Bool) : (s.putFbBit i b).gridValid = s.gridValid := rfl
@[simp] theorem State.putFbBit_pbValid (s : State) (i : Nat) (b : Bool) : (s.putFbBit i b).pbValid = s.pbValid := rfl
@[simp] theorem State.putFbBit_faulted (s : State) (i : Nat) (b : Bool) : (s.putFbBit i b).faulted = s.faulted := rfl
@[simp] theorem State.putFbBit_err (s : State) (i : Nat) (b : Bool) : (s.putFbBit i b).err = s.err := rfl
@[simp] theorem State.putFbBit_errInfo (s : State) (i : Nat) (b : Bool) : (s.putFbBit i b).errInfo = s.errInfo := rfl
@[simp] theorem State.putFbBit_errCmd (s : State) (i : Nat) (b : Bool) : (s.putFbBit i b).errCmd = s.errCmd := rfl
@[simp] theorem State.putFbBit_eccCount (s : State) (i : Nat) (b : Bool) : (s.putFbBit i b).eccCount = s.eccCount := rfl
@[simp] theorem State.putFbBit_acc (s : State) (i : Nat) (b : Bool) : (s.putFbBit i b).acc = s.acc := rfl
@[simp] theorem State.putFbBit_cw (s : State) (i : Nat) (b : Bool) : (s.putFbBit i b).cw = s.cw := rfl
@[simp] theorem State.putFbBit_cwv (s : State) (i : Nat) (b : Bool) : (s.putFbBit i b).cwv = s.cwv := rfl
@[simp] theorem State.putFbBit_pb (s : State) (i : Nat) (b : Bool) : (s.putFbBit i b).pb = s.pb := rfl
@[simp] theorem State.putFbBit_fb (s : State) (i : Nat) (b : Bool) : (s.putFbBit i b).fb = fbSetBit s.fb i b := rfl
@[simp] theorem State.putFbBit_rsp (s : State) (i : Nat) (b : Bool) : (s.putFbBit i b).rsp = s.rsp := rfl
@[simp] theorem State.putFbBit_port (s : State) (i : Nat) (b : Bool) : (s.putFbBit i b).port = s.port := rfl

/-! `State.rendered` -/

@[simp] theorem State.rendered_inst (s : State) (fb : Memory Byte) : (s.rendered fb).inst = s.inst := rfl
@[simp] theorem State.rendered_cfg (s : State) (fb : Memory Byte) : (s.rendered fb).cfg = s.cfg := rfl
@[simp] theorem State.rendered_snap (s : State) (fb : Memory Byte) : (s.rendered fb).snap = s.snap := rfl
@[simp] theorem State.rendered_geom (s : State) (fb : Memory Byte) : (s.rendered fb).geom = s.geom := rfl
@[simp] theorem State.rendered_session (s : State) (fb : Memory Byte) : (s.rendered fb).session = s.session := rfl
@[simp] theorem State.rendered_eccPhase (s : State) (fb : Memory Byte) : (s.rendered fb).eccPhase = s.eccPhase := rfl
@[simp] theorem State.rendered_gridValid (s : State) (fb : Memory Byte) : (s.rendered fb).gridValid = s.gridValid := rfl
@[simp] theorem State.rendered_pbValid (s : State) (fb : Memory Byte) : (s.rendered fb).pbValid = true := rfl
@[simp] theorem State.rendered_faulted (s : State) (fb : Memory Byte) : (s.rendered fb).faulted = s.faulted := rfl
@[simp] theorem State.rendered_err (s : State) (fb : Memory Byte) : (s.rendered fb).err = s.err := rfl
@[simp] theorem State.rendered_errInfo (s : State) (fb : Memory Byte) : (s.rendered fb).errInfo = s.errInfo := rfl
@[simp] theorem State.rendered_errCmd (s : State) (fb : Memory Byte) : (s.rendered fb).errCmd = s.errCmd := rfl
@[simp] theorem State.rendered_eccCount (s : State) (fb : Memory Byte) : (s.rendered fb).eccCount = s.eccCount := rfl
@[simp] theorem State.rendered_acc (s : State) (fb : Memory Byte) : (s.rendered fb).acc = s.acc := rfl
@[simp] theorem State.rendered_cw (s : State) (fb : Memory Byte) : (s.rendered fb).cw = s.cw := rfl
@[simp] theorem State.rendered_cwv (s : State) (fb : Memory Byte) : (s.rendered fb).cwv = s.cwv := rfl
@[simp] theorem State.rendered_pb (s : State) (fb : Memory Byte) : (s.rendered fb).pb = loadPattern s.inst.stopPattern := rfl
@[simp] theorem State.rendered_fb (s : State) (fb : Memory Byte) : (s.rendered fb).fb = fb := rfl
@[simp] theorem State.rendered_rsp (s : State) (fb : Memory Byte) : (s.rendered fb).rsp = s.rsp := rfl
@[simp] theorem State.rendered_port (s : State) (fb : Memory Byte) : (s.rendered fb).port = s.port := rfl

/-- Every memory of the machine right after reset is in its canonical form. -/
theorem State.reset_memories_wf :
    Memory.wf 0 State.reset.acc ∧ Memory.wf 0 State.reset.cw ∧ Memory.wf false State.reset.cwv ∧
    Memory.wf 0#8 State.reset.fb := by
  simp [State.reset, Memory.wf]

end Sys2Proof.Machine
end

