-- ==== Sys2Proof/Laws/Command.lean ====
section
/-! SUPPORT. What the common gate and the tests of a command's own rule can answer, and the one form every meaning
has. -/

namespace Sys2Proof.Machine

variable {s t : State} {r : Raised} {k : RuleResult}

/-! The tests. -/

theorem need_eq_ok {p : Prop} [Decidable p] : need p r k = .ok t ↔ p ∧ k = .ok t := by
  unfold need; split <;> simp_all

theorem need_pos {p : Prop} [Decidable p] (h : p) : need p r k = k := if_pos h

theorem need_neg {p : Prop} [Decidable p] (h : ¬p) : need p r k = .error r := if_neg h

theorem needIndex_eq_ok {i n : Nat} : needIndex i n k = .ok t ↔ i < n ∧ k = .ok t := need_eq_ok

theorem needIndex_pos {i n : Nat} (h : i < n) : needIndex i n k = k := if_pos h

theorem needIndex_neg {i n : Nat} (h : ¬i < n) : needIndex i n k = .error (.indexRange, i) := if_neg h

theorem needCodeword_eq_ok {v : Nat} : needCodeword v k = .ok t ↔ v ≤ 928 ∧ k = .ok t := need_eq_ok

theorem needCodeword_pos {v : Nat} (h : v ≤ 928) : needCodeword v k = k := if_pos h

theorem needCodeword_neg {v : Nat} (h : ¬v ≤ 928) : needCodeword v k = .error (.codewordRange, v) := if_neg h

theorem needPhase_eq_ok {p : EccPhase} : needPhase s p k = .ok t ↔ s.eccPhase = p ∧ k = .ok t := need_eq_ok

theorem needPhase_pos {p : EccPhase} (h : s.eccPhase = p) : needPhase s p k = k := if_pos h

theorem needPhase_neg {p : EccPhase} (h : s.eccPhase ≠ p) : needPhase s p k = .error (.sequence, 0) := if_neg h

theorem needGrid_eq_ok : needGrid s k = .ok t ↔ s.gridValid = true ∧ k = .ok t := need_eq_ok

theorem needGrid_pos (h : s.gridValid = true) : needGrid s k = k := if_pos h

theorem needGrid_neg (h : s.gridValid = false) : needGrid s k = .error (.sequence, 3) := by simp [needGrid, need, h]

theorem needPb_eq_ok : needPb s k = .ok t ↔ s.pbValid = true ∧ k = .ok t := need_eq_ok

theorem needPb_pos (h : s.pbValid = true) : needPb s k = k := if_pos h

theorem needPb_neg (h : s.pbValid = false) : needPb s k = .error (.uninitRead, 0) := by simp [needPb, need, h]

/-! The search for the lowest invalid codeword. -/

theorem firstInvalid_none {lo n : Nat} :
    s.firstInvalid lo n = none ↔ ∀ i, lo ≤ i → i < lo + n → s.cwValid i = true := by
  simp only [State.firstInvalid, List.find?_eq_none, List.mem_range'_1]
  constructor
  · intro h i h1 h2; simpa using h i ⟨h1, h2⟩
  · rintro h i ⟨h1, h2⟩; simp [h i h1 h2]

theorem firstInvalid_some {lo n i : Nat} (h1 : lo ≤ i) (h2 : i < lo + n) (hv : s.cwValid i = false)
    (hl : ∀ j, lo ≤ j → j < i → s.cwValid j = true) : s.firstInvalid lo n = some i := by
  obtain ⟨m, rfl⟩ : ∃ m, i = lo + m := ⟨i - lo, by omega⟩
  have hn : n = m + ((n - m - 1) + 1) := by omega
  have : List.range' lo n = List.range' lo m ++ (lo + m) :: List.range' (lo + m + 1) (n - m - 1) := by
    conv_lhs => rw [hn]
    rw [← List.range'_append_1, List.range'_succ]
  rw [State.firstInvalid, this, List.find?_append]
  have hnone : (List.range' lo m).find? (fun i => !s.cwValid i) = none := by
    rw [List.find?_eq_none]
    intro j hj
    have := List.mem_range'_1.1 hj
    simp [hl j this.1 this.2]
  simp [hnone, hv]

theorem firstInvalid_spec {lo n i : Nat} (h : s.firstInvalid lo n = some i) :
    lo ≤ i ∧ i < lo + n ∧ s.cwValid i = false := by
  have h1 := List.mem_of_find?_eq_some h
  have h2 := List.find?_some h
  have := List.mem_range'_1.1 h1
  exact ⟨this.1, this.2, by simpa using h2⟩

theorem needValid_pos {lo n : Nat} (h : ∀ i, lo ≤ i → i < lo + n → s.cwValid i = true) : needValid s lo n k = k := by
  rw [needValid, firstInvalid_none.2 h]

theorem needValid_neg {lo n i : Nat} (h1 : lo ≤ i) (h2 : i < lo + n) (hv : s.cwValid i = false)
    (hl : ∀ j, lo ≤ j → j < i → s.cwValid j = true) : needValid s lo n k = .error (.uninitRead, i) := by
  rw [needValid, firstInvalid_some h1 h2 hv hl]

theorem needValid_eq_ok {lo n : Nat} :
    needValid s lo n k = .ok t ↔ (∀ i, lo ≤ i → i < lo + n → s.cwValid i = true) ∧ k = .ok t := by
  rw [← firstInvalid_none, needValid]
  cases h : s.firstInvalid lo n <;> simp

/-! The common gate. -/

variable {i : Instr} {g : Gate} {rule : State → RuleResult}

/-- Every command is answered by a next state. -/
theorem command_next : ∃ t, command i g rule s = .next t := by
  unfold command
  repeat' split
  all_goals exact ⟨_, rfl⟩

/-- The own rule runs. -/
theorem command_runs (hf : s.faulted = false) (hs : s.session = true ∨ g ≠ .session) :
    command i g rule s =
      match rule s with
      | .ok t => .next t
      | .error r => .next (s.raise r (encode i)) := by
  unfold command
  have hn : ¬(s.session = false ∧ g = .session) := by
    rintro ⟨h1, h2⟩
    rcases hs with h | h
    · simp [h1] at h
    · exact h h2
  rw [if_neg (by simp [hf]), if_neg hn]
  all_goals rfl

theorem command_ok (hf : s.faulted = false) (hs : s.session = true ∨ g ≠ .session) (h : rule s = .ok t) :
    command i g rule s = .next t := by rw [command_runs hf hs, h]

theorem command_error (hf : s.faulted = false) (hs : s.session = true ∨ g ≠ .session) (h : rule s = .error r) :
    command i g rule s = .next (s.raise r (encode i)) := by rw [command_runs hf hs, h]

/-- Everything the common gate can do (R105). -/
theorem command_cases (h : command i g rule s = .next t) :
    (s.faulted = true ∧ g ≠ .always ∧ t = s) ∨
    (s.faulted = false ∧ s.session = false ∧ g = .session ∧ t = s.raise (.sequence, 4) (encode i)) ∨
    ((s.faulted = false ∨ g = .always) ∧ (s.session = true ∨ g ≠ .session) ∧
      ((∃ r, rule s = .error r ∧ t = s.raise r (encode i)) ∨ rule s = .ok t)) := by
  unfold command at h
  split at h
  · next h1 => cases h; exact .inl ⟨h1.1, h1.2, rfl⟩
  · next h1 =>
    have hf : s.faulted = false ∨ g = .always := by
      cases hf : s.faulted
      · exact .inl rfl
      · exact .inr (Classical.not_not.1 fun hg => h1 ⟨hf, hg⟩)
    split at h
    · next h2 =>
      cases h
      refine .inr (.inl ⟨?_, h2.1, h2.2, rfl⟩)
      rcases hf with hf | hf
      · exact hf
      · rw [h2.2] at hf; cases hf
    · next h2 =>
      have hs : s.session = true ∨ g ≠ .session := by
        cases hs : s.session
        · exact .inr fun hg => h2 ⟨hs, hg⟩
        · exact .inl rfl
      refine .inr (.inr ⟨hf, hs, ?_⟩)
      split at h
      · next u hu => cases h; exact .inr hu
      · next r hr => cases h; exact .inl ⟨r, hr, rfl⟩

/-- Column F of R86 and the session column of R105, for every command. -/
def gateOf : Instr → Gate
  | .nop | .rdreg _ | .sreset => .always
  | .wrcfg _ _ | .begin_ => .unfaulted
  | _ => .session

/-- The own rule of every command. -/
def ownRule : Instr → State → RuleResult
  | .nop => .ok
  | .wrcfg reg imm16 => wrcfgRule reg imm16
  | .rdreg reg => fun s => .ok (s.respond (s.register reg))
  | .begin_ => beginRule
  | .sreset => fun s => .ok s.resetNow
  | .eccStart => eccStartRule
  | .eccPush cw => eccPushRule cw
  | .eccRun => eccRunRule
  | .eccFin => eccFinRule
  | .eccRdacc j => eccRdaccRule j
  | .eccChk => eccChkRule
  | .cwWr idx cw => cwWrRule idx cw
  | .cwRd idx => cwRdRule idx
  | .pbClr => fun s => .ok (s.setPb 0x00000000#32)
  | .pbFill => fun s => .ok (s.setPb 0xFFFFFFFF#32)
  | .pbGetb i => pbGetbRule i
  | .pbSetb i => pbPutRule i true
  | .pbClrb i => pbPutRule i false
  | .pbAndi mask => pbAndiRule mask
  | .pbByte b => pbByteRule b
  | .fbClr => fun s => needGrid s <| .ok (s.fillFb 0x00#8)
  | .fbFill => fun s => needGrid s <| .ok (s.fillFb 0xFF#8)
  | .fbGetb i => fbGetbRule i
  | .fbSetb i => fbPutRule i true
  | .fbClrb i => fbPutRule i false
  | .fbByte b => fbByteRule b
  | .gridInit => gridInitRule
  | .pxSet x y => pxSetRule x y
  | .pxClr x y => pxClrRule x y
  | .pxGet x y => pxGetRule x y
  | .gridRawb r => gridRawbRule r
  | .patLd c v => patLdRule c v
  | .patStart => fun s => .ok (s.setPb (loadPattern s.inst.startPattern))
  | .patStop => fun s => .ok (s.setPb (loadPattern s.inst.stopPattern))
  | .indL row => indLRule row
  | .indR row => indRRule row
  | .drawBar row m => drawBarRule row m
  | .drawSpc row m => drawSpcRule row m
  | .drawPb row slot => drawPbRule row slot
  | .renderRow row => renderRowRule row
  | .render => renderRule

/-- Every meaning is its own rule behind the common gate. -/
theorem exec_eq (i : Instr) (s : State) : exec i s = command i (gateOf i) (ownRule i) s := by cases i <;> rfl

end Sys2Proof.Machine
end

