-- ==== Sys2Proof/Laws/Memory.lean ====
section
/-! SUPPORT. The laws of the memory operations: read after write, the canonical form is kept, and canonical memories with
equal reads are equal. -/

namespace Sys2Proof.Machine

variable {α : Type} {d : α}

@[simp] theorem Memory.read_nil (a : Nat) : Memory.read d [] a = d := rfl

theorem Memory.read_cons (k : Nat) (x : α) (m : Memory α) (a : Nat) :
    Memory.read d ((k, x) :: m) a = if k = a then x else Memory.read d m a := rfl

/-- An index listed nowhere reads the default. -/
theorem Memory.read_unlisted (m : Memory α) (a : Nat) (h : ∀ c ∈ m, c.1 ≠ a) : m.read d a = d := by
  induction m with
  | nil => rfl
  | cons c m ih =>
    rw [Memory.read_cons, if_neg (h c (by simp)), ih fun c hc => h c (by simp [hc])]

theorem Memory.read_insert (m : Memory α) (a : Nat) (v : α) (b : Nat) :
    (m.insert a v).read d b = if b = a then v else m.read d b := by
  induction m with
  | nil => simp [Memory.insert, Memory.read_cons, eq_comm]
  | cons c m ih =>
    obtain ⟨k, x⟩ := c
    by_cases hb : b = a
    · subst hb
      by_cases h1 : k < b
      · have : k ≠ b := by omega
        simp [Memory.insert, Memory.read_cons, h1, this, ih]
      · by_cases h2 : k = b <;> simp [Memory.insert, Memory.read_cons, h1, h2]
    · by_cases h1 : k < a
      · simp [Memory.insert, Memory.read_cons, h1, hb, ih]
      · have hb' : a ≠ b := fun h => hb h.symm
        by_cases h2 : k = a
        · subst h2
          simp [Memory.insert, Memory.read_cons, hb, hb']
        · simp [Memory.insert, Memory.read_cons, h1, h2, hb, hb']

theorem Memory.read_filter (m : Memory α) (p : Nat → Bool) (b : Nat) :
    Memory.read d (m.filter fun c => p c.1) b = if p b then m.read d b else d := by
  induction m with
  | nil => simp
  | cons c m ih =>
    obtain ⟨k, x⟩ := c
    by_cases hk : k = b
    · subst hk
      cases h : p k with
      | true => simp [h, Memory.read_cons]
      | false => simp [h, ih]
    · cases h : p k <;> simp [h, Memory.read_cons, hk, ih]

theorem Memory.read_erase (m : Memory α) (a b : Nat) :
    (m.erase a).read d b = if b = a then d else m.read d b := by
  have := Memory.read_filter (d := d) m (fun k => decide (k ≠ a)) b
  by_cases h : b = a <;> simpa [Memory.erase, h] using this

/-- What reading a memory after one write answers, at every index. -/
theorem Memory.read_write [DecidableEq α] (m : Memory α) (a : Nat) (v : α) (b : Nat) :
    (m.write d a v).read d b = if b = a then v else m.read d b := by
  unfold Memory.write
  split
  · next h => subst h; exact m.read_erase a b
  · exact m.read_insert a v b

@[simp] theorem Memory.read_write_same [DecidableEq α] (m : Memory α) (a : Nat) (v : α) :
    (m.write d a v).read d a = v := by simp [Memory.read_write]

theorem Memory.read_write_other [DecidableEq α] (m : Memory α) {a b : Nat} (v : α) (h : b ≠ a) :
    (m.write d a v).read d b = m.read d b := by simp [Memory.read_write, h]

/-- What reading a memory after a run of writes answers, at every index. -/
theorem Memory.read_writeList [DecidableEq α] (m : Memory α) (base : Nat) (vs : List α) (b : Nat) :
    (m.writeList d base vs).read d b =
      if base ≤ b ∧ b < base + vs.length then vs.getD (b - base) d else m.read d b := by
  induction vs generalizing m base with
  | nil => simp [Memory.writeList]
  | cons v vs ih =>
    rw [Memory.writeList, ih, Memory.read_write]
    by_cases hb : b = base
    · subst hb; simp
    · by_cases h : base + 1 ≤ b ∧ b < base + 1 + vs.length
      · have h2 : base ≤ b ∧ b < base + (v :: vs).length := by simp only [List.length_cons]; omega
        rw [if_pos h, if_pos h2]
        obtain ⟨n, hn⟩ : ∃ n, b - base = n + 1 := ⟨b - base - 1, by omega⟩
        have : b - (base + 1) = n := by omega
        rw [hn, this, List.getD_cons_succ]
      · have h2 : ¬ (base ≤ b ∧ b < base + (v :: vs).length) := by simp only [List.length_cons]; omega
        rw [if_neg h, if_neg h2, if_neg hb]

theorem Memory.read_map_range (n : Nat) (v : α) (rest : Memory α) (b : Nat) :
    Memory.read d (((List.range n).map fun a => (a, v)) ++ rest) b = if b < n then v else rest.read d b := by
  suffices h : ∀ (l : List Nat), Memory.read d ((l.map fun a => (a, v)) ++ rest) b =
      if b ∈ l then v else rest.read d b by simpa using h (List.range n)
  intro l
  induction l with
  | nil => simp
  | cons a l ih =>
    by_cases h : a = b
    · simp [Memory.read_cons, h]
    · have : b ≠ a := fun e => h e.symm
      simp [Memory.read_cons, h, this, ih]

/-- What reading a memory after a bulk write answers, at every index. -/
theorem Memory.read_fill [DecidableEq α] (m : Memory α) (n : Nat) (v : α) (b : Nat) :
    (m.fill d n v).read d b = if b < n then v else m.read d b := by
  have hf : Memory.read d (m.filter fun c => decide (n ≤ c.1)) b = if b < n then d else m.read d b := by
    have := Memory.read_filter (d := d) m (fun k => decide (n ≤ k)) b
    by_cases h : b < n
    · have h2 : ¬ n ≤ b := by omega
      simpa [h, h2] using this
    · have h2 : n ≤ b := by omega
      simpa [h, h2] using this
  unfold Memory.fill
  by_cases hv : v = d
  · simp [hv, hf]
  · rw [if_neg hv, Memory.read_map_range, hf]
    by_cases h : b < n <;> simp [h]

/-! The canonical form. -/

theorem Memory.wf_nil : Memory.wf d ([] : Memory α) := by simp [Memory.wf]

theorem Memory.mem_insert (m : Memory α) (a : Nat) (v : α) {c : Nat × α} (h : c ∈ m.insert a v) :
    c = (a, v) ∨ c ∈ m := by
  induction m with
  | nil => simpa [Memory.insert] using h
  | cons e m ih =>
    obtain ⟨k, x⟩ := e
    unfold Memory.insert at h
    split at h
    · rcases List.mem_cons.1 h with h | h
      · exact .inr (by simp [h])
      · rcases ih h with h | h
        · exact .inl h
        · exact .inr (by simp [h])
    · split at h
      · rcases List.mem_cons.1 h with h | h
        · exact .inl h
        · exact .inr (by simp [h])
      · rcases List.mem_cons.1 h with h | h
        · exact .inl h
        · exact .inr h

theorem Memory.pairwise_insert (m : Memory α) (a : Nat) (v : α) (h : m.Pairwise fun x y => x.1 < y.1) :
    (m.insert a v).Pairwise fun x y => x.1 < y.1 := by
  induction m with
  | nil => simp [Memory.insert]
  | cons e m ih =>
    obtain ⟨k, x⟩ := e
    rw [List.pairwise_cons] at h
    unfold Memory.insert
    split
    · next hk =>
      rw [List.pairwise_cons]
      refine ⟨fun c hc => ?_, ih h.2⟩
      rcases Memory.mem_insert m a v hc with rfl | hc
      · exact hk
      · exact h.1 c hc
    · split
      · next hk =>
        subst hk
        exact List.pairwise_cons.2 ⟨h.1, h.2⟩
      · next hk hne =>
        refine List.pairwise_cons.2 ⟨fun c hc => ?_, List.pairwise_cons.2 h⟩
        rcases List.mem_cons.1 hc with rfl | hc
        · show a < k
          omega
        · have := h.1 c hc
          show a < c.1
          simp only at this
          omega

/-- A write keeps the canonical form. -/
theorem Memory.wf_write [DecidableEq α] {m : Memory α} (h : m.wf d) (a : Nat) (v : α) : (m.write d a v).wf d := by
  unfold Memory.write
  split
  · exact ⟨h.1.filter _, fun c hc => h.2 c (List.mem_of_mem_filter hc)⟩
  · next hv =>
    refine ⟨Memory.pairwise_insert m a v h.1, fun c hc => ?_⟩
    rcases Memory.mem_insert m a v hc with rfl | hc
    · exact hv
    · exact h.2 c hc

/-- A run of writes keeps the canonical form. -/
theorem Memory.wf_writeList [DecidableEq α] {m : Memory α} (h : m.wf d) (base : Nat) (vs : List α) :
    (m.writeList d base vs).wf d := by
  induction vs generalizing m base with
  | nil => exact h
  | cons v vs ih => exact ih (Memory.wf_write h base v) (base + 1)

/-- A bulk write keeps the canonical form. -/
theorem Memory.wf_fill [DecidableEq α] {m : Memory α} (h : m.wf d) (n : Nat) (v : α) : (m.fill d n v).wf d := by
  unfold Memory.fill
  refine ⟨List.pairwise_append.2 ⟨?_, h.1.filter _, ?_⟩, ?_⟩
  · split
    · simp
    · rw [List.pairwise_map]; simpa using List.pairwise_lt_range (n := n)
  · intro x hx y hy
    split at hx
    · simp at hx
    · obtain ⟨a, ha, rfl⟩ := List.mem_map.1 hx
      have := List.mem_range.1 ha
      have h2 : n ≤ y.1 := by simpa using (List.mem_filter.1 hy).2
      show a < y.1
      omega
  · intro c hc
    rcases List.mem_append.1 hc with hc | hc
    · split at hc
      · simp at hc
      · next hv =>
        obtain ⟨a, -, rfl⟩ := List.mem_map.1 hc
        exact hv
    · exact h.2 c (List.mem_of_mem_filter hc)

/-! The bound on the listed indices. -/

theorem Memory.below_mono {m : Memory α} {n n' : Nat} (h : m.below n) (hn : n ≤ n') : m.below n' :=
  fun c hc => Nat.lt_of_lt_of_le (h c hc) hn

theorem Memory.below_write [DecidableEq α] {m : Memory α} {n : Nat} (h : m.below n) {a : Nat} (ha : a < n) (v : α) :
    (m.write d a v).below n := by
  intro c hc
  unfold Memory.write at hc
  split at hc
  · exact h c (List.mem_of_mem_filter hc)
  · rcases Memory.mem_insert m a v hc with rfl | hc
    · exact ha
    · exact h c hc

theorem Memory.below_writeList [DecidableEq α] {m : Memory α} {n : Nat} (h : m.below n) {base : Nat} {vs : List α}
    (hb : base + vs.length ≤ n) : (m.writeList d base vs).below n := by
  induction vs generalizing m base with
  | nil => exact h
  | cons v vs ih =>
    simp only [List.length_cons] at hb
    exact ih (Memory.below_write h (by omega) v) (by omega)

theorem Memory.below_fill [DecidableEq α] {m : Memory α} {n : Nat} (h : m.below n) {k : Nat} (hk : k ≤ n) (v : α) :
    (m.fill d k v).below n := by
  intro c hc
  unfold Memory.fill at hc
  rcases List.mem_append.1 hc with hc | hc
  · split at hc
    · simp at hc
    · obtain ⟨a, ha, rfl⟩ := List.mem_map.1 hc
      have := List.mem_range.1 ha
      show a < n
      omega
  · exact h c (List.mem_of_mem_filter hc)

/-! Canonical memories are determined by their reads. -/

theorem Memory.read_mem {m : Memory α} (h : m.wf d) {a : Nat} {v : α} (hc : (a, v) ∈ m) : m.read d a = v := by
  induction m with
  | nil => simp at hc
  | cons e m ih =>
    obtain ⟨k, x⟩ := e
    have hp := List.pairwise_cons.1 h.1
    rw [Memory.read_cons]
    rcases List.mem_cons.1 hc with hc | hc
    · cases hc; simp
    · have : k ≠ a := Nat.ne_of_lt (hp.1 _ hc)
      rw [if_neg this]
      exact ih ⟨hp.2, fun c hc => h.2 c (by simp [hc])⟩ hc

theorem Memory.mem_of_read {m : Memory α} {a : Nat} {v : α} (hr : m.read d a = v) (hv : v ≠ d) : (a, v) ∈ m := by
  induction m with
  | nil => exact absurd hr.symm hv
  | cons e m ih =>
    obtain ⟨k, x⟩ := e
    rw [Memory.read_cons] at hr
    split at hr
    · next hk => subst hk; subst hr; simp
    · exact List.mem_cons_of_mem _ (ih hr)

/-- Equal reads, equal canonical memories. -/
theorem Memory.ext_of_wf {m m' : Memory α} (h : m.wf d) (h' : m'.wf d) (hr : ∀ a, m.read d a = m'.read d a) :
    m = m' := by
  have key : ∀ {m m' : Memory α}, m.wf d → (∀ a, m.read d a = m'.read d a) → ∀ c ∈ m, c ∈ m' := by
    intro m m' h hr c hc
    obtain ⟨a, v⟩ := c
    exact Memory.mem_of_read ((hr a).symm.trans (Memory.read_mem h hc)) (h.2 _ hc)
  have nd : ∀ {m : Memory α}, m.wf d → m.Nodup := fun h =>
    h.1.imp (fun hlt he => by subst he; exact Nat.lt_irrefl _ hlt)
  have hp : m.Perm m' :=
    (List.perm_ext_iff_of_nodup (nd h) (nd h')).2 fun c => ⟨key h hr c, key h' (fun a => (hr a).symm) c⟩
  exact hp.eq_of_pairwise (le := fun x y => x.1 < y.1)
    (fun a b _ _ h1 h2 => absurd h1 (Nat.lt_asymm h2)) h.1 h'.1

end Sys2Proof.Machine
end

