-- ==== Sys2Proof/Laws/Bits.lean ====
section
/-! SUPPORT. What the packed bit buffer's operations do to each bit (R62, R64, R210), and that they keep the frame
memory canonical. -/

namespace Sys2Proof.Machine

theorem getLsbD_putBit {w : Nat} (x : BitVec w) {i : Nat} (b : Bool) (hi : i < w) (j : Nat) :
    (putBit x i b).getLsbD j = if j = i then b else x.getLsbD j := by
  have hb : (BitVec.ofNat w b.toNat).getLsbD (j - i) = (decide (j - i = 0) && b && decide (j - i < w)) := by
    rw [BitVec.getLsbD_ofNat]
    cases b
    · simp
    · by_cases h : j - i = 0
      · simp [h]
      · obtain ⟨n, hn⟩ := Nat.exists_eq_succ_of_ne_zero h
        simp [hn, Nat.testBit_succ]
  unfold putBit
  simp only [BitVec.getLsbD_or, BitVec.getLsbD_and, BitVec.getLsbD_not, BitVec.getLsbD_shiftLeft, hb,
    BitVec.getLsbD_one]
  by_cases hj : j = i
  · subst hj
    have hw : 0 < w := by omega
    simp [hi, hw]
  · by_cases hlt : j < i
    · have hjw : j < w := by omega
      simp [hj, hlt, hjw]
    · have : ¬ j - i = 0 := by omega
      by_cases hjw : j < w
      · simp [hj, hlt, this, hjw]
      · simp [hj, hlt, hjw, BitVec.getLsbD_of_ge x j (by omega)]

/-- Bit `j` of the frame memory after one bit write. -/
theorem fbBit_fbSetBit (fb : Memory Byte) (i : Nat) (b : Bool) (j : Nat) :
    fbBit (fbSetBit fb i b) j = if j = i then b else fbBit fb j := by
  unfold fbBit fbSetBit
  rw [Memory.read_write]
  by_cases hq : j / 8 = i / 8
  · rw [if_pos hq, getLsbD_putBit _ _ (by omega), hq]
    by_cases hr : j % 8 = i % 8
    · rw [if_pos hr, if_pos (by omega)]
    · rw [if_neg hr, if_neg (by rintro rfl; exact hr rfl)]
  · rw [if_neg hq, if_neg (by rintro rfl; exact hq rfl)]

/-- Bit `j` of the frame memory after a run of bit writes of one value. -/
theorem fbBit_fbSetBits (fb : Memory Byte) (is : List Nat) (b : Bool) (j : Nat) :
    fbBit (fbSetBits fb is b) j = if j ∈ is then b else fbBit fb j := by
  unfold fbSetBits
  induction is generalizing fb with
  | nil => simp
  | cons i is ih =>
    rw [List.foldl_cons, ih, fbBit_fbSetBit]
    by_cases h1 : j ∈ is <;> by_cases h2 : j = i <;> simp [h1, h2]

/-- Bit `j` of the frame memory after a bulk write. -/
theorem fbBit_fbFillWords (fb : Memory Byte) (used : Nat) (lane : Byte) (j : Nat) :
    fbBit (fbFillWords fb used lane) j = if j < 32 * used then lane.getLsbD (j % 8) else fbBit fb j := by
  unfold fbBit fbFillWords
  rw [Memory.read_fill]
  by_cases h : j < 32 * used
  · rw [if_pos (by omega), if_pos h]
  · rw [if_neg (by omega), if_neg h]

theorem fbSetBit_wf {fb : Memory Byte} (h : fb.wf 0#8) (i : Nat) (b : Bool) : (fbSetBit fb i b).wf 0#8 :=
  Memory.wf_write h _ _

theorem fbSetBits_wf {fb : Memory Byte} (h : fb.wf 0#8) (is : List Nat) (b : Bool) : (fbSetBits fb is b).wf 0#8 := by
  unfold fbSetBits
  induction is generalizing fb with
  | nil => exact h
  | cons i is ih => exact ih (fbSetBit_wf h i b)

theorem fbFillWords_wf {fb : Memory Byte} (h : fb.wf 0#8) (used : Nat) (lane : Byte) :
    (fbFillWords fb used lane).wf 0#8 := Memory.wf_fill h _ _

theorem fbSetBit_below {fb : Memory Byte} {n : Nat} (h : fb.below n) {i : Nat} (hi : i < 8 * n) (b : Bool) :
    (fbSetBit fb i b).below n := Memory.below_write h (by omega) _

theorem fbSetBits_below {fb : Memory Byte} {n : Nat} (h : fb.below n) {is : List Nat} (hi : ∀ i ∈ is, i < 8 * n)
    (b : Bool) : (fbSetBits fb is b).below n := by
  unfold fbSetBits
  induction is generalizing fb with
  | nil => exact h
  | cons i is ih => exact ih (fbSetBit_below h (hi i (by simp)) b) fun j hj => hi j (by simp [hj])

/-- A sum of shifted bits has exactly those bits. -/
theorem testBit_sumBits (f : Nat → Bool) (n : Nat) :
    (List.range n).foldl (fun acc m => acc + (f m).toNat <<< m) 0 < 2 ^ n ∧
      ∀ j, ((List.range n).foldl (fun acc m => acc + (f m).toNat <<< m) 0).testBit j = (decide (j < n) && f j) := by
  induction n with
  | zero => simp
  | succ n ih =>
    obtain ⟨h1, h2⟩ := ih
    rw [List.range_succ, List.foldl_append]
    generalize (List.range n).foldl (fun acc m => acc + (f m).toNat <<< m) 0 = x at h1 h2
    simp only [List.foldl_cons, List.foldl_nil, Nat.shiftLeft_eq]
    constructor
    · have : (f n).toNat ≤ 1 := Bool.toNat_le _
      have : (f n).toNat * 2 ^ n ≤ 1 * 2 ^ n := Nat.mul_le_mul_right _ this
      rw [Nat.pow_succ]; omega
    · intro j
      rw [Nat.add_comm, Nat.mul_comm, Nat.testBit_two_pow_mul_add _ h1]
      by_cases hj : j < n
      · simp [hj, h2, Nat.lt_succ_of_lt hj]
      · by_cases he : j = n
        · subst he; cases f j <;> simp
        · obtain ⟨k, hk⟩ : ∃ k, j - n = k + 1 := ⟨j - n - 1, by omega⟩
          have : ¬ j < n + 1 := by omega
          rw [if_neg hj, hk]
          cases f n <;> simp [this, Nat.testBit_succ]

/-- `load(p)`: buffer index `m` holds module `m`, slack is zero (R210). -/
theorem getLsbD_loadPattern (p : Pattern) (m : Nat) :
    (loadPattern p).getLsbD m = (decide (m < 17) && p.getLsbD (16 - m)) := by
  have h := (testBit_sumBits (moduleBit p) patternModules).2 m
  rw [loadPattern, BitVec.getLsbD_ofNat, h]
  by_cases hm : m < 17
  · have : m < 32 := by omega
    simp [patternModules, moduleBit, hm, this]
  · simp [patternModules, hm]

/-- `byte(buf, b)`: bit `7 - t` of the byte is bit `8 * b + t` of the buffer (R64). -/
theorem testBit_extractByte (bit : Nat → Bool) (b : Nat) :
    extractByte bit b < 256 ∧ ∀ t, t < 8 → (extractByte bit b).testBit (7 - t) = bit (8 * b + t) := by
  have h8 : List.range 8 = [0, 1, 2, 3, 4, 5, 6, 7] := rfl
  have key : ∀ b0 b1 b2 b3 b4 b5 b6 b7 : Bool,
      let n := 0 + b0.toNat <<< 7 + b1.toNat <<< 6 + b2.toNat <<< 5 + b3.toNat <<< 4 + b4.toNat <<< 3 +
        b5.toNat <<< 2 + b6.toNat <<< 1 + b7.toNat <<< 0
      n < 256 ∧ n.testBit 7 = b0 ∧ n.testBit 6 = b1 ∧ n.testBit 5 = b2 ∧ n.testBit 4 = b3 ∧ n.testBit 3 = b4 ∧
        n.testBit 2 = b5 ∧ n.testBit 1 = b6 ∧ n.testBit 0 = b7 := by decide
  have hk := key (bit (8 * b)) (bit (8 * b + 1)) (bit (8 * b + 2)) (bit (8 * b + 3)) (bit (8 * b + 4))
    (bit (8 * b + 5)) (bit (8 * b + 6)) (bit (8 * b + 7))
  unfold extractByte
  rw [h8]
  simp only [List.foldl_cons, List.foldl_nil, Nat.add_zero] at hk ⊢
  obtain ⟨hlt, h0, h1, h2, h3, h4, h5, h6, h7⟩ := hk
  refine ⟨hlt, fun t ht => ?_⟩
  interval_cases t <;> assumption

/-- Two buffers that agree on the eight bits of a byte have the same byte. -/
theorem extractByte_congr {bit bit' : Nat → Bool} {b : Nat} (h : ∀ t, t < 8 → bit (8 * b + t) = bit' (8 * b + t)) :
    extractByte bit b = extractByte bit' b := by
  unfold extractByte
  have h8 : List.range 8 = [0, 1, 2, 3, 4, 5, 6, 7] := rfl
  rw [h8]
  have h0 : bit (8 * b) = bit' (8 * b) := h 0 (by decide)
  simp [h0, h 1, h 2, h 3, h 4, h 5, h 6, h 7]

/-- Canonical frame memories with equal bits are equal. -/
theorem fb_ext {fb fb' : Memory Byte} (h : fb.wf 0#8) (h' : fb'.wf 0#8) (hb : ∀ i, fbBit fb i = fbBit fb' i) :
    fb = fb' := by
  refine Memory.ext_of_wf h h' fun a => BitVec.eq_of_getLsbD_eq fun j hj => ?_
  have := hb (8 * a + j)
  unfold fbBit at this
  have h1 : (8 * a + j) / 8 = a := by omega
  have h2 : (8 * a + j) % 8 = j := by omega
  rwa [h1, h2] at this

end Sys2Proof.Machine
end

