-- ==== Sys2Proof/Laws/Draw.lean ====
section
/-! SUPPORT. What drawing does to each bit of the frame memory (R218, R221 to R224): a draw is a list of rectangles with a
value each, written in order. -/

namespace Sys2Proof.Machine

/-- Write each rectangle of a list in order: the bits and their value. -/
def draws (fb : Memory Byte) (L : List (List Nat × Bool)) : Memory Byte :=
  L.foldl (fun fb p => fbSetBits fb p.1 p.2) fb

theorem draws_append (fb : Memory Byte) (L L' : List (List Nat × Bool)) :
    draws fb (L ++ L') = draws (draws fb L) L' := List.foldl_append ..

theorem draws_flatMap {β : Type} (xs : List β) (f : β → List (List Nat × Bool)) (fb : Memory Byte) :
    draws fb (xs.flatMap f) = xs.foldl (fun fb x => draws fb (f x)) fb := by
  induction xs generalizing fb with
  | nil => rfl
  | cons x xs ih => rw [List.flatMap_cons, draws_append, ih]; rfl

/-- A bit that every rectangle holding it gives the value `v` reads `v` if some rectangle holds it, else as before. -/
theorem fbBit_draws {L : List (List Nat × Bool)} {j : Nat} {v : Bool} (fb : Memory Byte)
    (h : ∀ p ∈ L, j ∈ p.1 → p.2 = v) :
    fbBit (draws fb L) j = if ∃ p ∈ L, j ∈ p.1 then v else fbBit fb j := by
  induction L generalizing fb with
  | nil => simp [draws]
  | cons p L ih =>
    have : draws fb (p :: L) = draws (fbSetBits fb p.1 p.2) L := rfl
    rw [this, ih _ fun q hq => h q (by simp [hq]), fbBit_fbSetBits]
    by_cases h1 : ∃ q ∈ L, j ∈ q.1
    · have : ∃ q ∈ p :: L, j ∈ q.1 := h1.imp fun q hq => ⟨by simp [hq.1], hq.2⟩
      rw [if_pos h1, if_pos this]
    · by_cases h2 : j ∈ p.1
      · rw [if_neg h1, if_pos h2, if_pos ⟨p, by simp, h2⟩]; exact h p (by simp) h2
      · have : ¬∃ q ∈ p :: L, j ∈ q.1 := by
          rintro ⟨q, hq, hj⟩
          rcases List.mem_cons.1 hq with rfl | hq
          · exact h2 hj
          · exact h1 ⟨q, hq, hj⟩
        rw [if_neg h1, if_neg h2, if_neg this]

theorem draws_wf {fb : Memory Byte} (h : fb.wf 0#8) (L : List (List Nat × Bool)) : (draws fb L).wf 0#8 := by
  induction L generalizing fb with
  | nil => exact h
  | cons p L ih => exact ih (fbSetBits_wf h p.1 p.2)

theorem draws_below {fb : Memory Byte} {n : Nat} (h : fb.below n) {L : List (List Nat × Bool)}
    (hL : ∀ p ∈ L, ∀ i ∈ p.1, i < 8 * n) : (draws fb L).below n := by
  induction L generalizing fb with
  | nil => exact h
  | cons p L ih =>
    exact ih (fbSetBits_below h (hL p (by simp)) p.2) fun q hq => hL q (by simp [hq])

/-- The rectangle of one module (R218). -/
theorem mem_moduleBits {s : State} {row m j : Nat} :
    j ∈ s.moduleBits row m ↔
      ∃ dx dy, dx < s.snap.modw ∧ dy < s.snap.modw * s.snap.rhm ∧
        j = (s.snap.margin + row * s.snap.modw * s.snap.rhm + dy) * s.geom.gridAW +
          (s.snap.margin + m * s.snap.modw + dx) := by
  simp only [State.moduleBits, List.mem_flatMap, List.mem_map, List.mem_range]
  constructor
  · rintro ⟨dy, hy, dx, hx, rfl⟩; exact ⟨dx, dy, hx, hy, rfl⟩
  · rintro ⟨dx, dy, hx, hy, rfl⟩; exact ⟨dy, hy, dx, hx, rfl⟩

/-- The rectangles of `drawpat` on the bits of `pb` (R221). -/
def State.patternDraws (s : State) (row slot : Nat) (pb : Word) : List (List Nat × Bool) :=
  (List.range 17).map fun m => (s.moduleBits row (slot * 17 + m), pb.getLsbD m)

theorem drawPattern_eq (s : State) (row slot : Nat) (pb : Word) (fb : Memory Byte) :
    s.drawPattern row slot pb fb = draws fb (s.patternDraws row slot pb) := by
  unfold State.drawPattern State.patternDraws draws State.drawModule
  rw [List.foldl_map]
  rfl

/-- The rectangles of a symbol row (R223). -/
def State.rowDraws (s : State) (row : Nat) : List (List Nat × Bool) :=
  ((s.rowPatterns row).zipIdx.flatMap fun p => s.patternDraws row p.2 (loadPattern p.1)) ++
    [(s.moduleBits row (s.geom.symCols - 1), true)]

theorem drawRow_eq (s : State) (row : Nat) (fb : Memory Byte) : s.drawRow row fb = draws fb (s.rowDraws row) := by
  unfold State.drawRow State.rowDraws
  rw [draws_append, draws_flatMap]
  simp only [drawPattern_eq]
  rfl

/-- The rectangles of the whole symbol (R224). -/
theorem drawRows_eq (s : State) (rows : List Nat) (fb : Memory Byte) :
    rows.foldl (fun fb row => s.drawRow row fb) fb = draws fb (rows.flatMap s.rowDraws) := by
  rw [draws_flatMap]
  simp only [drawRow_eq]

end Sys2Proof.Machine
end

