-- ==== Sys2Proof/Laws/PerInstr.lean ====
section
/-! SUPPORT. The family `MaskMatch`: the word of every well-formed command matches its own row of the opcode map (R86,
R87). One lemma per command. -/

namespace Sys2Proof.Laws

/-- A mask that keeps the opcode byte keeps the word's top eight bits. -/
theorem and_opMask (w : Word) : (w &&& 0xFF000000#32).toNat = w.toNat / 2 ^ 24 * 2 ^ 24 := by
  rw [BitVec.toNat_and]
  have hm : (0xFF000000#32).toNat = (2 ^ 8 - 1) * 2 ^ 24 := by decide
  rw [hm]
  apply Nat.eq_of_testBit_eq
  intro j
  rw [Nat.testBit_and, Nat.testBit_mul_two_pow, Nat.testBit_mul_two_pow, Nat.testBit_two_pow_sub_one,
    Nat.testBit_div_two_pow]
  by_cases hj : 24 ≤ j
  · by_cases h2 : j < 32
    · have h1 : j - 24 + 24 = j := by omega
      have h3 : j - 24 < 8 := by omega
      simp [hj, h1, h3]
    · have : w.toNat.testBit j = false :=
        Nat.testBit_lt_two_pow (Nat.lt_of_lt_of_le w.isLt (Nat.pow_le_pow_right (by decide) (by omega)))
      have h1 : j - 24 + 24 = j := by omega
      simp [hj, h1, this]
  · simp [hj]

/-- The mask of `RDREG`'s row keeps all but the register field. -/
theorem and_rdregMask (w : Word) :
    (w &&& 0xFF00FFFF#32).toNat = w.toNat / 2 ^ 24 * 2 ^ 24 + w.toNat % 2 ^ 16 := by
  rw [BitVec.toNat_and]
  have hm : (0xFF00FFFF#32).toNat = 2 ^ 24 * (2 ^ 8 - 1) + (2 ^ 16 - 1) := by decide
  have hl : w.toNat % 2 ^ 16 < 2 ^ 24 := Nat.lt_of_lt_of_le (Nat.mod_lt _ (by decide)) (by decide)
  rw [hm, Nat.mul_comm _ (2 ^ 24)]
  apply Nat.eq_of_testBit_eq
  intro j
  rw [Nat.testBit_and, Nat.testBit_two_pow_mul_add _ (by decide), Nat.testBit_two_pow_mul_add _ hl,
    Nat.testBit_two_pow_sub_one, Nat.testBit_two_pow_sub_one, Nat.testBit_div_two_pow, Nat.testBit_mod_two_pow]
  by_cases hj : j < 24
  · by_cases h2 : j < 16 <;> simp [hj, h2]
  · have h1 : j - 24 + 24 = j := by omega
    by_cases h2 : j < 32
    · have h3 : j - 24 < 8 := by omega
      simp [hj, h1, h3]
    · have : w.toNat.testBit j = false :=
        Nat.testBit_lt_two_pow (Nat.lt_of_lt_of_le w.isLt (Nat.pow_le_pow_right (by decide) (by omega)))
      simp [hj, h1, this]

/-- A word of format I or N matches the opcode mask. -/
theorem wordI_and_opMask {op n : Nat} (hn : n < 2 ^ 24) :
    wordI op n &&& BitVec.ofNat 32 0xFF000000 = BitVec.ofNat 32 (op * 2 ^ 24) := by
  apply BitVec.eq_of_toNat_eq
  rw [and_opMask, wordI, BitVec.toNat_ofNat, BitVec.toNat_ofNat]
  omega

/-- A word of format RI matches the opcode mask. -/
theorem wordRI_and_opMask {op a b : Nat} (ha : a < 2 ^ 8) (hb : b < 2 ^ 16) :
    wordRI op a b &&& BitVec.ofNat 32 0xFF000000 = BitVec.ofNat 32 (op * 2 ^ 24) := by
  apply BitVec.eq_of_toNat_eq
  rw [and_opMask, wordRI, BitVec.toNat_ofNat, BitVec.toNat_ofNat]
  omega

/-- A word of format AB matches the opcode mask. -/
theorem wordAB_and_opMask {op a b : Nat} (ha : a < 2 ^ 12) (hb : b < 2 ^ 12) :
    wordAB op a b &&& BitVec.ofNat 32 0xFF000000 = BitVec.ofNat 32 (op * 2 ^ 24) := by
  apply BitVec.eq_of_toNat_eq
  rw [and_opMask, wordAB, BitVec.toNat_ofNat, BitVec.toNat_ofNat]
  omega

/-- The word of `RDREG` matches its mask. -/
theorem wordRI_and_rdregMask {op a : Nat} (ha : a < 2 ^ 8) :
    wordRI op a 0 &&& BitVec.ofNat 32 0xFF00FFFF = BitVec.ofNat 32 (op * 2 ^ 24) := by
  apply BitVec.eq_of_toNat_eq
  rw [and_rdregMask, wordRI, BitVec.toNat_ofNat, BitVec.toNat_ofNat]
  omega

/-- The word of a well-formed command matches the row of R87 that has its mnemonic. -/
def MaskMatch.Statement (i : Instr) : Prop :=
  i.wf = true → ∃ r ∈ opcodeRows, r.mnemonic = i.mnemonic ∧ encode i &&& r.mask = r.value

theorem MaskMatch.nop : MaskMatch.Statement .nop := fun _ =>
  ⟨rowN "NOP" 0x00, by decide, rfl, by decide⟩

theorem MaskMatch.wrcfg (reg imm16 : Nat) : MaskMatch.Statement (.wrcfg reg imm16) := by
  intro h
  simp only [Instr.wf, fitsReg, fitsImm16, Bool.and_eq_true, decide_eq_true_eq] at h
  exact ⟨rowO "WRCFG" 0x01, by decide, rfl, wordRI_and_opMask h.1 h.2⟩

theorem MaskMatch.rdreg (reg : Nat) : MaskMatch.Statement (.rdreg reg) := by
  intro h
  simp only [Instr.wf, fitsReg, decide_eq_true_eq] at h
  exact ⟨opRow "RDREG" 0x02 0xFF00FFFF, by decide, rfl, wordRI_and_rdregMask h⟩

theorem MaskMatch.begin_ : MaskMatch.Statement .begin_ := fun _ =>
  ⟨rowN "BEGIN" 0x03, by decide, rfl, by decide⟩

theorem MaskMatch.sreset : MaskMatch.Statement .sreset := fun _ =>
  ⟨rowN "SRESET" 0x04, by decide, rfl, by decide⟩

theorem MaskMatch.eccStart : MaskMatch.Statement .eccStart := fun _ =>
  ⟨rowN "ECC.START" 0x10, by decide, rfl, by decide⟩

theorem MaskMatch.eccPush (cw : Nat) : MaskMatch.Statement (.eccPush cw) := by
  intro h
  simp only [Instr.wf, fitsImm24, decide_eq_true_eq] at h
  exact ⟨rowO "ECC.PUSH" 0x11, by decide, rfl, wordI_and_opMask h⟩

theorem MaskMatch.eccRun : MaskMatch.Statement .eccRun := fun _ =>
  ⟨rowN "ECC.RUN" 0x12, by decide, rfl, by decide⟩

theorem MaskMatch.eccFin : MaskMatch.Statement .eccFin := fun _ =>
  ⟨rowN "ECC.FIN" 0x13, by decide, rfl, by decide⟩

theorem MaskMatch.eccRdacc (j : Nat) : MaskMatch.Statement (.eccRdacc j) := by
  intro h
  simp only [Instr.wf, fitsImm24, decide_eq_true_eq] at h
  exact ⟨rowO "ECC.RDACC" 0x14, by decide, rfl, wordI_and_opMask h⟩

theorem MaskMatch.eccChk : MaskMatch.Statement .eccChk := fun _ =>
  ⟨rowN "ECC.CHK" 0x15, by decide, rfl, by decide⟩

theorem MaskMatch.cwWr (idx cw : Nat) : MaskMatch.Statement (.cwWr idx cw) := by
  intro h
  simp only [Instr.wf, fitsImm12, Bool.and_eq_true, decide_eq_true_eq] at h
  exact ⟨rowO "CW.WR" 0x20, by decide, rfl, wordAB_and_opMask h.1 h.2⟩

theorem MaskMatch.cwRd (idx : Nat) : MaskMatch.Statement (.cwRd idx) := by
  intro h
  simp only [Instr.wf, fitsImm24, decide_eq_true_eq] at h
  exact ⟨rowO "CW.RD" 0x21, by decide, rfl, wordI_and_opMask h⟩

theorem MaskMatch.pbClr : MaskMatch.Statement .pbClr := fun _ =>
  ⟨rowN "PB.CLR" 0x30, by decide, rfl, by decide⟩

theorem MaskMatch.pbFill : MaskMatch.Statement .pbFill := fun _ =>
  ⟨rowN "PB.FILL" 0x31, by decide, rfl, by decide⟩

theorem MaskMatch.pbGetb (i : Nat) : MaskMatch.Statement (.pbGetb i) := by
  intro h
  simp only [Instr.wf, fitsImm24, decide_eq_true_eq] at h
  exact ⟨rowO "PB.GETB" 0x32, by decide, rfl, wordI_and_opMask h⟩

theorem MaskMatch.pbSetb (i : Nat) : MaskMatch.Statement (.pbSetb i) := by
  intro h
  simp only [Instr.wf, fitsImm24, decide_eq_true_eq] at h
  exact ⟨rowO "PB.SETB" 0x33, by decide, rfl, wordI_and_opMask h⟩

theorem MaskMatch.pbClrb (i : Nat) : MaskMatch.Statement (.pbClrb i) := by
  intro h
  simp only [Instr.wf, fitsImm24, decide_eq_true_eq] at h
  exact ⟨rowO "PB.CLRB" 0x34, by decide, rfl, wordI_and_opMask h⟩

theorem MaskMatch.pbAndi (mask : Nat) : MaskMatch.Statement (.pbAndi mask) := by
  intro h
  simp only [Instr.wf, fitsImm24, decide_eq_true_eq] at h
  exact ⟨rowO "PB.ANDI" 0x35, by decide, rfl, wordI_and_opMask h⟩

theorem MaskMatch.pbByte (b : Nat) : MaskMatch.Statement (.pbByte b) := by
  intro h
  simp only [Instr.wf, fitsImm24, decide_eq_true_eq] at h
  exact ⟨rowO "PB.BYTE" 0x36, by decide, rfl, wordI_and_opMask h⟩

theorem MaskMatch.fbClr : MaskMatch.Statement .fbClr := fun _ =>
  ⟨rowN "FB.CLR" 0x40, by decide, rfl, by decide⟩

theorem MaskMatch.fbFill : MaskMatch.Statement .fbFill := fun _ =>
  ⟨rowN "FB.FILL" 0x41, by decide, rfl, by decide⟩

theorem MaskMatch.fbGetb (i : Nat) : MaskMatch.Statement (.fbGetb i) := by
  intro h
  simp only [Instr.wf, fitsImm24, decide_eq_true_eq] at h
  exact ⟨rowO "FB.GETB" 0x42, by decide, rfl, wordI_and_opMask h⟩

theorem MaskMatch.fbSetb (i : Nat) : MaskMatch.Statement (.fbSetb i) := by
  intro h
  simp only [Instr.wf, fitsImm24, decide_eq_true_eq] at h
  exact ⟨rowO "FB.SETB" 0x43, by decide, rfl, wordI_and_opMask h⟩

theorem MaskMatch.fbClrb (i : Nat) : MaskMatch.Statement (.fbClrb i) := by
  intro h
  simp only [Instr.wf, fitsImm24, decide_eq_true_eq] at h
  exact ⟨rowO "FB.CLRB" 0x44, by decide, rfl, wordI_and_opMask h⟩

theorem MaskMatch.fbByte (b : Nat) : MaskMatch.Statement (.fbByte b) := by
  intro h
  simp only [Instr.wf, fitsImm24, decide_eq_true_eq] at h
  exact ⟨rowO "FB.BYTE" 0x46, by decide, rfl, wordI_and_opMask h⟩

theorem MaskMatch.gridInit : MaskMatch.Statement .gridInit := fun _ =>
  ⟨rowN "GRID.INIT" 0x50, by decide, rfl, by decide⟩

theorem MaskMatch.pxSet (x y : Nat) : MaskMatch.Statement (.pxSet x y) := by
  intro h
  simp only [Instr.wf, fitsImm12, Bool.and_eq_true, decide_eq_true_eq] at h
  exact ⟨rowO "PX.SET" 0x51, by decide, rfl, wordAB_and_opMask h.1 h.2⟩

theorem MaskMatch.pxClr (x y : Nat) : MaskMatch.Statement (.pxClr x y) := by
  intro h
  simp only [Instr.wf, fitsImm12, Bool.and_eq_true, decide_eq_true_eq] at h
  exact ⟨rowO "PX.CLR" 0x52, by decide, rfl, wordAB_and_opMask h.1 h.2⟩

theorem MaskMatch.pxGet (x y : Nat) : MaskMatch.Statement (.pxGet x y) := by
  intro h
  simp only [Instr.wf, fitsImm12, Bool.and_eq_true, decide_eq_true_eq] at h
  exact ⟨rowO "PX.GET" 0x53, by decide, rfl, wordAB_and_opMask h.1 h.2⟩

theorem MaskMatch.gridRawb (r : Nat) : MaskMatch.Statement (.gridRawb r) := by
  intro h
  simp only [Instr.wf, fitsImm24, decide_eq_true_eq] at h
  exact ⟨rowO "GRID.RAWB" 0x54, by decide, rfl, wordI_and_opMask h⟩

theorem MaskMatch.patLd (c v : Nat) : MaskMatch.Statement (.patLd c v) := by
  intro h
  simp only [Instr.wf, fitsImm12, Bool.and_eq_true, decide_eq_true_eq] at h
  exact ⟨rowO "PAT.LD" 0x60, by decide, rfl, wordAB_and_opMask h.1 h.2⟩

theorem MaskMatch.patStart : MaskMatch.Statement .patStart := fun _ =>
  ⟨rowN "PAT.START" 0x61, by decide, rfl, by decide⟩

theorem MaskMatch.patStop : MaskMatch.Statement .patStop := fun _ =>
  ⟨rowN "PAT.STOP" 0x62, by decide, rfl, by decide⟩

theorem MaskMatch.indL (row : Nat) : MaskMatch.Statement (.indL row) := by
  intro h
  simp only [Instr.wf, fitsImm24, decide_eq_true_eq] at h
  exact ⟨rowO "IND.L" 0x63, by decide, rfl, wordI_and_opMask h⟩

theorem MaskMatch.indR (row : Nat) : MaskMatch.Statement (.indR row) := by
  intro h
  simp only [Instr.wf, fitsImm24, decide_eq_true_eq] at h
  exact ⟨rowO "IND.R" 0x64, by decide, rfl, wordI_and_opMask h⟩

theorem MaskMatch.drawBar (row m : Nat) : MaskMatch.Statement (.drawBar row m) := by
  intro h
  simp only [Instr.wf, fitsImm12, Bool.and_eq_true, decide_eq_true_eq] at h
  exact ⟨rowO "DRAW.BAR" 0x65, by decide, rfl, wordAB_and_opMask h.1 h.2⟩

theorem MaskMatch.drawSpc (row m : Nat) : MaskMatch.Statement (.drawSpc row m) := by
  intro h
  simp only [Instr.wf, fitsImm12, Bool.and_eq_true, decide_eq_true_eq] at h
  exact ⟨rowO "DRAW.SPC" 0x66, by decide, rfl, wordAB_and_opMask h.1 h.2⟩

theorem MaskMatch.drawPb (row slot : Nat) : MaskMatch.Statement (.drawPb row slot) := by
  intro h
  simp only [Instr.wf, fitsImm12, Bool.and_eq_true, decide_eq_true_eq] at h
  exact ⟨rowO "DRAW.PB" 0x67, by decide, rfl, wordAB_and_opMask h.1 h.2⟩

theorem MaskMatch.renderRow (row : Nat) : MaskMatch.Statement (.renderRow row) := by
  intro h
  simp only [Instr.wf, fitsImm24, decide_eq_true_eq] at h
  exact ⟨rowO "RENDER.ROW" 0x68, by decide, rfl, wordI_and_opMask h⟩

theorem MaskMatch.render : MaskMatch.Statement .render := fun _ =>
  ⟨rowN "RENDER" 0x69, by decide, rfl, by decide⟩

end Sys2Proof.Laws
end

