-- ==== Sys2Proof/Tests/Slice0.lean ====
section
/-! SUPPORT. Small tests of the model. Expected values come from the spec: the words of R81 and R86, the vectors of
spec/95_test_vectors.md (named E, Y, W, B, F, X, D, T there) and hand calculation from the rules. Then one witness per
statement that has hypotheses: concrete states and operands that meet them, clause by clause. -/

namespace Sys2Proof.Tests

open Sys2Proof.Machine

/-! Small states. -/

/-- The state a next-state answer holds. -/
def after : Outcome → State
  | .next t => t
  | _ => State.reset

/-- Configuration registers. -/
def cfgOf (level rows dcols ndata modw rhm margin : Nat) : CfgRegs :=
  { level := BitVec.ofNat 16 level, rows := BitVec.ofNat 16 rows, dcols := BitVec.ofNat 16 dcols,
    ndata := BitVec.ofNat 16 ndata, modw := BitVec.ofNat 16 modw, rhm := BitVec.ofNat 16 rhm,
    margin := BitVec.ofNat 16 margin }

/-- The reset state with these configuration registers. -/
def configured (c : CfgRegs) : State := { State.reset with cfg := c }

/-- A freshly opened session on these configuration registers. -/
def opened (c : CfgRegs) : State := (configured c).openSession (Snapshot.ofCfg c)

/-- The session of the vectors B, F and X: `CFG 0, 1, 5, 3`; `SCALE 1, 2, 0`. -/
def small : State := opened (cfgOf 0 1 5 3 1 2 0)

/-- `s` with `CW[0..]` holding `vs`, valid. -/
def withCw (s : State) (vs : List Nat) : State := s.storeCws 0 (vs.map toCodeword)

/-- `s` in a phase of the corrector, with `count` codewords absorbed and `ACC[0..]` holding `A`. -/
def inPhase (s : State) (p : EccPhase) (count : Nat) (A : List Nat) : State :=
  { s.setAcc (A.map toCodeword) with eccPhase := p, eccCount := count }

/-- `s` with its grid valid and all clear. -/
def withGrid (s : State) : State := { s with gridValid := true }

/-- `s` with a valid pattern buffer. -/
def withPb (s : State) (v : Word) : State := s.setPb v

/-- A faulted block: vector T1. -/
def faulted : State := State.reset.raise (.invalidConfig, 0) 0x03000000#32

/-- What a command appends to the response stream of `s`. -/
def answer (i : Instr) (s : State) : List Word := (after (exec i s)).rsp

/-- `ERR`, `ERRINFO`, `FAULTED` after a command. -/
def fault (i : Instr) (s : State) : ErrCode × Half × Bool :=
  let t := after (exec i s)
  (t.err, t.errInfo, t.faulted)

/-! Well-formedness: an ill-formed term for each check. -/

theorem test_wf_refuses_wide_reg : (Instr.rdreg 256).wf = false := by decide

theorem test_wf_refuses_wide_reg_of_wrcfg : (Instr.wrcfg 256 0).wf = false := by decide

theorem test_wf_refuses_wide_imm16 : (Instr.wrcfg 0 65536).wf = false := by decide

theorem test_wf_refuses_wide_imm24 : (Instr.eccPush 16777216).wf = false := by decide

theorem test_wf_refuses_wide_a : (Instr.cwWr 4096 0).wf = false := by decide

theorem test_wf_refuses_wide_b : (Instr.pxSet 0 4096).wf = false := by decide

/-! Decoding: every command's word, written from R81 and R86. -/

theorem test_decode_system :
    decode 0x00000000#32 = .ok .nop ∧ decode 0x01040004#32 = .ok (.wrcfg 4 4) ∧
    decode 0b00000010001011110000000000000000#32 = .ok (.rdreg 0x2F) ∧ decode 0x03000000#32 = .ok .begin_ ∧
    decode 0x04000000#32 = .ok .sreset := by decide

theorem test_decode_corrector :
    decode 0x10000000#32 = .ok .eccStart ∧ decode 0b00010001000000000000001110100001#32 = .ok (.eccPush 929) ∧
    decode 0x12000000#32 = .ok .eccRun ∧ decode 0x13000000#32 = .ok .eccFin ∧
    decode 0x14000001#32 = .ok (.eccRdacc 1) ∧ decode 0x15000000#32 = .ok .eccChk := by decide

theorem test_decode_codeword_memory :
    decode 0b00100000000000000100001110100000#32 = .ok (.cwWr 4 928) ∧ decode 0x2100000F#32 = .ok (.cwRd 15) := by
  decide

theorem test_decode_pattern_buffer :
    decode 0x30000000#32 = .ok .pbClr ∧ decode 0x31000000#32 = .ok .pbFill ∧
    decode 0b00110010000000000000000000100000#32 = .ok (.pbGetb 32) ∧ decode 0x3300001F#32 = .ok (.pbSetb 31) ∧
    decode 0x34000000#32 = .ok (.pbClrb 0) ∧ decode 0x35FFFFFF#32 = .ok (.pbAndi 0xFFFFFF) ∧
    decode 0x36000003#32 = .ok (.pbByte 3) := by decide

theorem test_decode_frame_buffer :
    decode 0x40000000#32 = .ok .fbClr ∧ decode 0x41000000#32 = .ok .fbFill ∧
    decode 0b01000010000000000000000101000000#32 = .ok (.fbGetb 320) ∧ decode 0x43000021#32 = .ok (.fbSetb 33) ∧
    decode 0x44000001#32 = .ok (.fbClrb 1) ∧ decode 0x46000027#32 = .ok (.fbByte 39) := by decide

theorem test_decode_pixel_grid :
    decode 0x50000000#32 = .ok .gridInit ∧ decode 0x51099001#32 = .ok (.pxSet 153 1) ∧
    decode 0x52008008#32 = .ok (.pxClr 8 8) ∧ decode 0b01010011000000010001000000001001#32 = .ok (.pxGet 17 9) ∧
    decode 0x54001848#32 = .ok (.gridRawb 6216) := by decide

theorem test_decode_render :
    decode 0x600023A0#32 = .ok (.patLd 2 928) ∧ decode 0x61000000#32 = .ok .patStart ∧
    decode 0x62000000#32 = .ok .patStop ∧ decode 0x63000007#32 = .ok (.indL 7) ∧
    decode 0x64000001#32 = .ok (.indR 1) ∧ decode 0b01100101000000000001000001110111#32 = .ok (.drawBar 1 119) ∧
    decode 0x66001002#32 = .ok (.drawSpc 1 2) ∧ decode 0x67001006#32 = .ok (.drawPb 1 6) ∧
    decode 0x68000001#32 = .ok (.renderRow 1) ∧ decode 0x69000000#32 = .ok .render := by decide

/-- Vectors T4 to T7 and the edges of R85's ranges. -/
theorem test_decode_rejects_reserved :
    decode 0x45000000#32 = .error .reservedOpcode ∧ decode 0x00000001#32 = .error .reservedBits ∧
    decode 0x02200001#32 = .error .reservedBits ∧ decode 0x03000001#32 = .error .reservedBits ∧
    [0x05, 0x0F, 0x16, 0x1F, 0x22, 0x2F, 0x37, 0x3F, 0x47, 0x4F, 0x55, 0x5F, 0x6A, 0x70, 0xFF].all (fun op =>
      decode (BitVec.ofNat 32 (op * 2 ^ 24)) = .error .reservedOpcode) = true := by decide

/-- What the host's two hooks answer on one word each. -/
theorem test_table_word_and_fetch_word :
    decodeTableWord 32 0x110003A1 = some (.eccPush 929) ∧ decodeTableWord 32 0x45000000 = none ∧
    (after (step (State.reset.withFetchWord 32 0x01010005))).cfg.rows = 5#16 := by decide

/-! The ROM listing: its shape (R250) and the spot values of
spec/95_test_vectors.md section 2.2. -/

theorem test_coeff_spot_values :
    defaultCoeff.map (fun row => ((row.headD 0).val, (row.getLastD 0).val)) =
      [(27, 917), (522, 809), (237, 379), (274, 65), (361, 410), (539, 543), (521, 539), (524, 10), (352, 263)] := by
  decide +kernel

theorem test_default_config_has_the_shape_of_R250 : Config.default.wf := by decide +kernel

/-! System commands. -/

/-- Y20. -/
theorem test_nop_while_faulted : after (exec .nop faulted) = faulted := rfl

/-- Y5: `STATUS` is read-only. -/
theorem test_wrcfg_read_only : fault (.wrcfg 0x20 1) State.reset = (.indexRange, 32#16, true) := by decide

/-- R101: any 16-bit value is stored. -/
theorem test_wrcfg_stores_sixteen_bits : (after (exec (.wrcfg 6 0xFFFF) State.reset)).cfg.margin = 0xFFFF#16 := by decide

/-- P4: the fault record is readable while faulted. -/
theorem test_rdreg_while_faulted :
    answer (.rdreg 0x23) faulted = [0x03000000#32] ∧ answer (.rdreg 0x20) faulted = [0x20#32] := by decide

/-- Y6. -/
theorem test_begin_geometry :
    let t := after (exec .begin_ (configured (cfgOf 2 8 2 8 4 3 8)))
    t.status = 1#32 ∧ t.snap.k = 8 ∧ t.geom = ⟨103, 428, 112, 448, 1568⟩ := by decide

/-- Y18: step 8 passes with 1024, step 9 fails. -/
theorem test_begin_order_of_tests :
    fault .begin_ (configured (cfgOf 8 90 30 512 4 3 8)) = (.invalidConfig, 8#16, true) := by decide

/-- Y21. -/
theorem test_sreset_recovers :
    (after (exec .sreset faulted)).err = .noFault ∧ (after (exec .sreset faulted)).cfg.level = 15#16 := by decide

/-! The corrector, on the level-0 row E1. -/

/-- The table of spec/95_test_vectors.md section 2.1. -/
theorem test_gf929_primitives :
    (mulmod 928 928).val = 1 ∧ (mulmod 822 917).val = 355 ∧ (addmod 928 928).val = 927 ∧ (addmod 928 1).val = 0 ∧
    (negmod 0).val = 0 ∧ (negmod 81).val = 848 := by decide

theorem test_eccStart_clears :
    let t := after (exec .eccStart (inPhase small .done 3 [827, 311]))
    t.accAt 0 = 0 ∧ t.accAt 1 = 0 ∧ t.eccCount = 0 ∧ t.eccPhase = .absorb := by decide

/-- E1, second absorb: slot 1 takes the old slot 0. -/
theorem test_eccPush_uses_the_old_slots :
    let t := after (exec (.eccPush 100) (inPhase (withCw small [3]) .absorb 1 [848, 36]))
    (t.accAt 0).val = 44 ∧ (t.accAt 1).val = 622 ∧ (t.cwAt 1).val = 100 ∧ t.eccCount = 2 := by decide

/-- T12. -/
theorem test_eccPush_one_too_many :
    fault (.eccPush 4) (inPhase small .absorb 3 [1, 1]) = (.sequence, 1#16, true) := by decide

theorem test_eccRun_absorbs_all :
    let t := after (exec .eccRun (inPhase (withCw small [3, 100, 200]) .absorb 0 [0, 0]))
    (t.accAt 0).val = 102 ∧ (t.accAt 1).val = 618 ∧ t.eccCount = 3 := by decide

/-- T18. -/
theorem test_eccRun_lowest_invalid :
    fault .eccRun (inPhase (withCw small [3]) .absorb 0 [0, 0]) = (.uninitRead, 1#16, true) := by decide

theorem test_eccFin_reverses :
    let t := after (exec .eccFin (inPhase (withCw small [3, 100, 200]) .absorb 3 [102, 618]))
    (t.accAt 0).val = 827 ∧ (t.cwAt 3).val = 311 ∧ (t.cwAt 4).val = 827 ∧ t.eccPhase = .done := by decide

theorem test_eccRdacc_responds :
    answer (.eccRdacc 1) (inPhase small .absorb 1 [848, 36]) = [36#32] ∧
    fault (.eccRdacc 2) (inPhase small .absorb 0 []) = (.indexRange, 2#16, true) := by decide

/-- E1's recheck, and the recheck of section 2.3 that does not end at zero. -/
theorem test_eccChk_responds :
    answer .eccChk (inPhase (withCw small [3, 100, 200, 311, 827]) .done 3 [827, 311]) = [1#32] ∧
    answer .eccChk (inPhase (withCw (opened (cfgOf 0 1 4 2 1 1 0)) [3, 100, 80, 799]) .done 2 []) = [0#32] := by decide

theorem test_eccChk_leaves_the_residue :
    let t := after (exec .eccChk (inPhase (withCw (opened (cfgOf 0 1 4 2 1 1 0)) [3, 100, 80, 799]) .done 2 []))
    (t.accAt 0).val = 621 ∧ (t.accAt 1).val = 279 ∧ t.eccPhase = .checked := by decide

/-! The codeword memory. -/

/-- W1 and W6. -/
theorem test_cwWr :
    ((after (exec (.cwWr 4 928) small)).cwAt 4).val = 928 ∧
    fault (.cwWr 16 929) small = (.codewordRange, 929#16, true) := by decide

/-- W2, and a valid read. -/
theorem test_cwRd :
    fault (.cwRd 0) small = (.uninitRead, 0#16, true) ∧ answer (.cwRd 1) (withCw small [7, 928]) = [928#32] := by decide

/-! The pattern buffer. -/

theorem test_pbClr : (after (exec .pbClr (withPb small 0xFFFFFFFF#32))).pb = 0#32 := by decide

theorem test_pbFill : (after (exec .pbFill small)).pb = 0xFFFFFFFF#32 ∧ (after (exec .pbFill small)).pbValid = true := by
  decide

/-- B6: slack reads what was stored; B9. -/
theorem test_pbGetb :
    answer (.pbGetb 17) (withPb small 0xFFFFFFFF#32) = [1#32] ∧ fault (.pbGetb 0) small = (.uninitRead, 0#16, true) := by
  decide

/-- B1, B2. -/
theorem test_pbSetb : (after (exec (.pbSetb 31) (withPb small 0x00000008#32))).pb = 0x80000008#32 := by decide

/-- B4. -/
theorem test_pbClrb : (after (exec (.pbClrb 0) (withPb small 0xFFFFFFFF#32))).pb = 0xFFFFFFFE#32 := by decide

/-- B3. -/
theorem test_pbAndi : (after (exec (.pbAndi 0xFFFFFF) (withPb small 0x80000008#32))).pb = 0x00000008#32 := by decide

/-- B2: bit order reversed. -/
theorem test_pbByte :
    answer (.pbByte 0) (withPb small 0x80000008#32) = [0x10#32] ∧
    answer (.pbByte 3) (withPb small 0x80000008#32) = [0x01#32] := by decide

/-! The frame buffer and the pixel grid. -/

/-- F7. -/
theorem test_fbClr :
    fbWord (after (exec .fbClr { withGrid small with fb := [(0, 0xFE#8), (39, 0xFF#8)] })).fb 0 = 0#32 := by decide

/-- F5, and no word above `FB_USED`. -/
theorem test_fbFill :
    let t := after (exec .fbFill (withGrid small))
    fbWord t.fb 9 = 0xFFFFFFFF#32 ∧ fbWord t.fb 10 = 0#32 := by decide

/-- F8. -/
theorem test_fbGetb :
    answer (.fbGetb 33) { withGrid small with fb := [(4, 0x02#8)] } = [1#32] ∧
    fault (.fbGetb 320) (withGrid small) = (.indexRange, 320#16, true) := by decide

/-- F1. -/
theorem test_fbSetb : fbWord (after (exec (.fbSetb 33) (withGrid small))).fb 1 = 0x00000002#32 := by decide

/-- A clear that leaves an all-zero lane unlists it. -/
theorem test_fbClrb : (after (exec (.fbClrb 33) { withGrid small with fb := [(4, 0x02#8)] })).fb = [] := by decide

/-- F2. -/
theorem test_fbByte : answer (.fbByte 1) { withGrid small with fb := [(1, 0x01#8)] } = [0x80#32] := by decide

/-- X9. -/
theorem test_gridInit :
    let t := after (exec .gridInit { small with fb := [(20, 0x20#8), (40, 0x01#8)] })
    fbWord t.fb 5 = 0#32 ∧ fbWord t.fb 10 = 1#32 ∧ t.status = 0x9#32 := by decide

/-- X1 and X6. -/
theorem test_pxSet :
    fbWord (after (exec (.pxSet 153 1) (withGrid small))).fb 9 = 0x02000000#32 ∧
    fault (.pxSet 154 0) (withGrid small) = (.indexRange, 154#16, true) := by decide

/-- X5. -/
theorem test_pxClr :
    fbWord (after (exec (.pxClr 31 0) { withGrid small with fb := [(0, 0x01#8), (3, 0x80#8)] })).fb 0 = 1#32 := by decide

/-- F3 and X7. -/
theorem test_pxGet :
    answer (.pxGet 40 1) { withGrid small with fb := [(25, 0x01#8)] } = [1#32] ∧
    fault (.pxGet 0 2) (withGrid small) = (.indexRange, 2#16, true) := by decide

/-- F4: raw byte 5 is byte 25, raw byte 21 is byte 1. -/
theorem test_gridRawb :
    answer (.gridRawb 5) { withGrid small with fb := [(1, 0x01#8), (25, 0x01#8)] } = [0x80#32] ∧
    answer (.gridRawb 21) { withGrid small with fb := [(1, 0x01#8), (25, 0x02#8)] } = [0x80#32] := by decide

/-! Patterns, indicators, drawing. -/

/-- Section 5.1, on the test ROM; the cluster is tested first. -/
theorem test_patLd :
    (after (exec (.patLd 2 928) small)).pb = 0x00004751#32 ∧
    fault (.patLd 3 929) small = (.indexRange, 3#16, true) := by decide +kernel

/-- B11. -/
theorem test_patStart : (after (exec .patStart small)).pb = 0x00002AFF#32 := by decide

/-- B12. -/
theorem test_patStop : (after (exec .patStop small)).pb = 0x0000517F#32 := by decide

/-- Section 5.2, session 2, 8, 2. -/
theorem test_indL :
    [0, 1, 2, 3, 4, 5, 6, 7].map (fun r => answer (.indL r) (opened (cfgOf 2 8 2 8 4 3 8))) =
      [[2#32], [7#32], [1#32], [32#32], [37#32], [31#32], [62#32], [67#32]] := by decide

theorem test_indR :
    [0, 1, 2, 3, 4, 5, 6, 7].map (fun r => answer (.indR r) (opened (cfgOf 2 8 2 8 4 3 8))) =
      [[1#32], [2#32], [7#32], [31#32], [32#32], [37#32], [61#32], [62#32]] := by decide

/-- D1, in the session `CFG 0, 2, 3, 4` at the reset scale. -/
theorem test_drawBar :
    let t := after (exec (.drawBar 0 0) (withGrid (opened (cfgOf 0 2 3 4 4 3 8))))
    fbWord t.fb 128 = 0x00000F00#32 ∧ fbWord t.fb 304 = 0x00000F00#32 ∧ fbWord t.fb 112 = 0#32 ∧
      fbWord t.fb 320 = 0#32 := by decide +kernel

/-- One module of a 1 x 2 rectangle cleared. -/
theorem test_drawSpc :
    let t := after (exec (.drawSpc 0 1) { withGrid small with fb := [(0, 0xFF#8), (20, 0xFF#8)] })
    fbWord t.fb 0 = 0xFD#32 ∧ fbWord t.fb 5 = 0xFD#32 := by decide +kernel

/-- D3 at scale 1: the start pattern in slot 0. -/
theorem test_drawPb :
    let t := after (exec (.drawPb 0 0) (withGrid (withPb small 0x00002AFF#32)))
    fbWord t.fb 0 = 0x00002AFF#32 ∧ fbWord t.fb 5 = 0x00002AFF#32 ∧ fbWord t.fb 1 = 0#32 := by decide +kernel

/-- P2's row. -/
theorem test_renderRow :
    let t := after (exec (.renderRow 0) (withGrid (withCw (opened (cfgOf 0 1 3 1 1 1 0)) [1, 917, 27])))
    [0, 1, 2, 3].map (fbWord t.fb) = [0x00022AFF#32, 0x4E0A0004#32, 0x002D8015#32, 0x00945FC8#32] ∧
      t.pb = 0x0000517F#32 := by decide +kernel

/-- The one-row symbol of section 5's equivalence. -/
theorem test_render :
    let t := after (exec .render (withGrid (withCw (opened (cfgOf 0 1 5 3 1 1 0)) [3, 100, 200, 311, 827])))
    [0, 1, 2, 3, 4].map (fbWord t.fb) =
      [0x00022AFF#32, 0x300B0004#32, 0x90213011#32, 0x00B7305D#32, 0x02517F10#32] := by decide +kernel

/-- D11: the lowest invalid codeword, before any pixel. -/
theorem test_render_refuses_unwritten :
    fault .render (withGrid (withCw (opened (cfgOf 0 2 3 4 4 3 8)) [4, 1, 2, 3, 5])) = (.uninitRead, 5#16, true) := by
  decide

/-- R89: the words P1's `CFG` and `PUSHCW` assemble to. -/
theorem test_pseudo_instructions :
    (pseudoCfg 0 1 5 3).map encode = [0x01000000#32, 0x01010001#32, 0x01020005#32, 0x01030003#32] ∧
    (pseudoScale 1 1 0).map encode = [0x01040001#32, 0x01050001#32, 0x01060000#32] ∧
    (pseudoLoadcw 0 [1, 917, 27]).map encode = [0x20000001#32, 0x20001395#32, 0x2000201B#32] ∧
    (pseudoPushcw [2, 123]).map encode = [0x11000002#32, 0x1100007B#32] := by decide

/-! Witnesses: for each statement with hypotheses, concrete values that meet them, clause by clause and at the edges. -/

/-- A state with a command word next at its port. -/
def presented (s : State) (w : Word) : State := s.present w

/-- A session with all five codewords written. -/
def loaded : State := withCw small [3, 100, 200, 311, 827]

/-- A session ready to render. -/
def ready : State := withGrid loaded

/-- A session that has absorbed nothing, its data codewords written. -/
def absorbing : State := inPhase (withCw small [3, 100, 200]) .absorb 0 [0, 0]

/-- A session that has absorbed all its data. -/
def absorbed : State := inPhase (withCw small [3, 100, 200]) .absorb 3 [102, 618]

/-- A session after `ECC.FIN`. -/
def done : State := inPhase loaded .done 3 [827, 311]

theorem inv_small : small.Inv :=
  ⟨⟨by decide, by decide, by decide, by decide⟩, ⟨by decide, by decide⟩, by decide,
    fun _ => ⟨⟨by decide, by decide, by decide, by decide, by decide, by decide, by decide, by decide, by decide,
      by decide, by decide, by decide, by decide⟩, by decide⟩,
    ⟨by decide, by decide, by decide, by decide⟩⟩

theorem inv_ready : ready.Inv :=
  ⟨⟨by decide, by decide, by decide, by decide⟩, ⟨by decide, by decide⟩, by decide,
    fun _ => ⟨⟨by decide, by decide, by decide, by decide, by decide, by decide, by decide, by decide, by decide,
      by decide, by decide, by decide, by decide⟩, by decide⟩,
    ⟨by decide, by decide, by decide, by decide⟩⟩

theorem inv_pbReady : (withPb ready 0#32).Inv :=
  ⟨⟨by decide, by decide, by decide, by decide⟩, ⟨by decide, by decide⟩, by decide,
    fun _ => ⟨⟨by decide, by decide, by decide, by decide, by decide, by decide, by decide, by decide, by decide,
      by decide, by decide, by decide, by decide⟩, by decide⟩,
    ⟨by decide, by decide, by decide, by decide⟩⟩

theorem inv_absorbing : absorbing.Inv :=
  ⟨⟨by decide, by decide, by decide, by decide⟩, ⟨by decide, by decide⟩, by decide,
    fun _ => ⟨⟨by decide, by decide, by decide, by decide, by decide, by decide, by decide, by decide, by decide,
      by decide, by decide, by decide, by decide⟩, by decide⟩,
    ⟨by decide, by decide, by decide, by decide⟩⟩

theorem inv_absorbed : absorbed.Inv :=
  ⟨⟨by decide, by decide, by decide, by decide⟩, ⟨by decide, by decide⟩, by decide,
    fun _ => ⟨⟨by decide, by decide, by decide, by decide, by decide, by decide, by decide, by decide, by decide,
      by decide, by decide, by decide, by decide⟩, by decide⟩,
    ⟨by decide, by decide, by decide, by decide⟩⟩

theorem inv_done : done.Inv :=
  ⟨⟨by decide, by decide, by decide, by decide⟩, ⟨by decide, by decide⟩, by decide,
    fun _ => ⟨⟨by decide, by decide, by decide, by decide, by decide, by decide, by decide, by decide, by decide,
      by decide, by decide, by decide, by decide⟩, by decide⟩,
    ⟨by decide, by decide, by decide, by decide⟩⟩

/-- The step keeps a state's other fields, so a port does not matter to the invariant. -/
theorem inv_present {s : State} (h : s.Inv) (w : Word) : (s.present w).Inv :=
  ⟨⟨h.memories.acc, h.memories.cw, h.memories.cwv, h.memories.fb⟩, ⟨h.fault.flag, h.fault.clear⟩, h.noSession, h.session,
    ⟨h.corrector.count, h.corrector.idle, h.corrector.absorbed, h.corrector.finished⟩⟩

theorem witness_DecodeOfEncodeIsTheCommand :
    [Instr.wrcfg 255 65535, .rdreg 255, .eccPush 16777215, .cwWr 4095 4095, .patLd 0 4095, .render, .nop].all
      Instr.wf = true := by decide

theorem witness_EncodeOfDecodeIsTheWord :
    decode 0x01FFFFFF#32 = .ok (.wrcfg 255 65535) ∧ decode 0x02FF0000#32 = .ok (.rdreg 255) ∧
    decode 0x20FFFFFF#32 = .ok (.cwWr 4095 4095) ∧ decode 0x68FFFFFF#32 = .ok (.renderRow 16777215) := by decide

theorem witness_MatchAndMaskRowsAreTheDecoder :
    let r := opRow "RDREG" 0x02 0xFF00FFFF
    r ∈ opcodeRows ∧ 0x02FF0000#32 &&& r.mask = r.value ∧ 0x02FF0001#32 &&& r.mask ≠ r.value := by decide

theorem witness_StepRunsTheDecodedCommand : decode 0x11FFFFFF#32 = .ok (.eccPush 16777215) := by decide

theorem witness_IdleHoldsAndHardwareResetIsSreset :
    State.reset.port = [] ∧
    step { faulted with port := .hardwareReset :: faulted.port } = .next faulted.resetNow := ⟨rfl, rfl⟩

theorem witness_FaultedBlockDropsEveryOtherWord :
    faulted.faulted = true ∧
    (∀ i, decode 0x45000000#32 = .ok i → Claims.runsWhileFaulted i = false) ∧
    ∀ i, decode 0x01010005#32 = .ok i → Claims.runsWhileFaulted i = false := by
  refine ⟨rfl, fun i h => ?_, fun i h => ?_⟩
  · have : decode 0x45000000#32 = .error .reservedOpcode := by decide
    rw [this] at h; cases h
  · have : decode 0x01010005#32 = .ok (.wrcfg 1 5) := by decide
    rw [this] at h; cases h; rfl

theorem witness_IllegalWordRaisesIllegalCommand :
    State.reset.faulted = false ∧ decode 0xFFFFFFFF#32 = .error .reservedOpcode ∧
    decode 0x00000001#32 = .error .reservedBits := by decide

theorem witness_NoSessionRaisesSequenceFour :
    State.reset.faulted = false ∧ State.reset.session = false ∧ Claims.needsNoSession .eccStart = false ∧
    Claims.needsNoSession (.patLd 0 0) = false := by decide

theorem witness_FaultsArePrecise :
    State.reset.faulted = false ∧ ∃ t, exec .begin_ State.reset = .next t ∧ t.faulted = true := ⟨rfl, _, rfl, by decide⟩

theorem witness_FirstFaultStaysUntilReset :
    faulted.faulted = true ∧ step (faulted.present 0x00000000#32) = .next faulted ∧
    step (faulted.present 0x04000000#32) = .next faulted.resetNow := ⟨rfl, rfl, rfl⟩

theorem witness_EveryStepKeepsTheBlockSound :
    (absorbed.present 0x13000000#32).Inv ∧ ∃ t, step (absorbed.present 0x13000000#32) = .next t ∧ t.eccPhase = .done :=
  ⟨inv_present inv_absorbed _, _, rfl, by decide⟩

theorem witness_EccPhaseTransitionsAreTheOnlyOnes :
    (∃ t, exec .begin_ { done with cfg := cfgOf 0 1 5 3 1 2 0 } = .next t ∧ t.eccPhase ≠ done.eccPhase) ∧
    (∃ t, exec .eccStart small = .next t ∧ t.eccPhase ≠ small.eccPhase) ∧
    (∃ t, exec .eccFin absorbed = .next t ∧ t.eccPhase ≠ absorbed.eccPhase) ∧
    (∃ t, exec .eccChk done = .next t ∧ t.eccPhase ≠ done.eccPhase) ∧
    ∃ t, exec .sreset done = .next t ∧ t.eccPhase ≠ done.eccPhase :=
  ⟨⟨_, rfl, by decide⟩, ⟨_, rfl, by decide⟩, ⟨_, rfl, by decide⟩, ⟨_, rfl, by decide⟩, ⟨_, rfl, by decide⟩⟩

theorem witness_RegistersChangeOnlyByTheirCommands :
    (∃ t, exec (.wrcfg 0 2) State.reset = .next t ∧ t.cfg ≠ State.reset.cfg) ∧
    (∃ t, exec .sreset small = .next t ∧ t.snap ≠ small.snap ∧ t.geom ≠ small.geom ∧ t.session ≠ small.session) ∧
    (∃ t, exec .begin_ (configured (cfgOf 0 1 5 3 1 2 0)) = .next t ∧ t.session ≠ State.reset.session) ∧
    (∃ t, exec .gridInit small = .next t ∧ t.gridValid ≠ small.gridValid) ∧
    (∃ t, exec .begin_ (withPb ready 0#32) = .next t ∧ t.gridValid ≠ ready.gridValid ∧ t.pbValid ≠ true) ∧
    (∃ t, exec .pbClr small = .next t ∧ t.pbValid ≠ small.pbValid) ∧
    (∃ t, exec .eccStart small = .next t ∧ t.eccPhase ≠ small.eccPhase) ∧
    (∃ t, exec .eccRun absorbing = .next t ∧ t.eccCount ≠ absorbing.eccCount) ∧
    (∃ t, exec (.cwRd 5) loaded = .next t ∧ t.faulted ≠ loaded.faulted ∧ t.err ≠ loaded.err ∧
      t.errInfo ≠ loaded.errInfo ∧ t.errCmd ≠ loaded.errCmd) ∧
    ∃ t, exec .sreset faulted = .next t ∧ t.faulted ≠ faulted.faulted ∧ t.err ≠ faulted.err :=
  ⟨⟨_, rfl, by decide⟩, ⟨_, rfl, by decide⟩, ⟨_, rfl, by decide⟩, ⟨_, rfl, by decide⟩, ⟨_, rfl, by decide⟩,
    ⟨_, rfl, by decide⟩, ⟨_, rfl, by decide⟩, ⟨_, rfl, by decide⟩, ⟨_, rfl, by decide⟩, ⟨_, rfl, by decide⟩⟩

theorem witness_MemoriesChangeOnlyByTheirCommands :
    (∃ t, exec .eccChk done = .next t ∧ t.accAt 0 ≠ done.accAt 0) ∧
    (∃ t, exec (.cwWr 4 928) small = .next t ∧ t.cwAt 4 ≠ small.cwAt 4 ∧ t.cwValid 4 ≠ small.cwValid 4) ∧
    (∃ t, exec .pbFill small = .next t ∧ t.pb ≠ small.pb) ∧
    ∃ t, exec (.pxSet 153 1) ready = .next t ∧ fbBit t.fb 313 ≠ fbBit ready.fb 313 :=
  ⟨⟨_, rfl, by decide⟩, ⟨_, rfl, by decide⟩, ⟨_, rfl, by decide⟩, ⟨_, rfl, by decide⟩⟩

theorem witness_OneResponsePerRespondingCommand :
    Claims.responds (.cwRd 0) = true ∧ Claims.responds .render = false ∧
    (∃ t, exec (.cwRd 0) loaded = .next t ∧ t.faulted = loaded.faulted) ∧
    (∃ t, exec (.cwRd 5) loaded = .next t ∧ t.faulted ≠ loaded.faulted) ∧
    faulted.faulted = true ∧ Claims.runsWhileFaulted (.cwRd 0) = false ∧
    ∃ t, exec (.rdreg 0) faulted = .next t ∧ t.faulted = faulted.faulted :=
  ⟨rfl, rfl, ⟨_, rfl, by decide⟩, ⟨_, rfl, by decide⟩, rfl, rfl, ⟨_, rfl, by decide⟩⟩

/-- Two sound states that differ in a slot, an entry, the pattern buffer and a frame lane nothing in the session wrote. -/
theorem witness_UnspecifiedContentsAreUnobservable :
    let s := small.present 0x50000000#32
    let t := { s with acc := [(0, 5)], cw := [(2, 7)], pb := 0xDEADBEEF#32, fb := [(0, 0xAA#8)] }
    s.Inv ∧ s.Alike t ∧ ∃ u, step s = .next u ∧ u.gridValid = true :=
  ⟨inv_present inv_small _,
    ⟨rfl, fun h => absurd rfl h, fun _ h => absurd h (by simp [State.cwValid, small, opened, State.openSession,
        State.present, Memory.read]), fun h => absurd h (by decide), fun h => absurd h (by decide)⟩,
    _, rfl, by decide⟩

theorem witness_WrcfgWritesOneRegister :
    State.reset.faulted = false ∧ 65535 < 2 ^ 16 ∧ (6 < 7 ∧ 0 < 7 ∧ 0 ≠ 6) ∧ 7 ≤ 7 ∧ 7 ≤ 255 := by decide

theorem witness_BeginTestsThenOpensTheSession :
    State.reset.faulted = false ∧
    [cfgOf 9 1 5 3 1 2 0, cfgOf 0 91 5 3 1 2 0, cfgOf 0 1 31 3 1 2 0, cfgOf 0 1 5 0 1 2 0, cfgOf 0 1 5 3 256 2 0,
      cfgOf 0 1 5 3 1 256 0, cfgOf 0 1 5 3 1 2 4096, cfgOf 8 90 30 513 1 1 0, cfgOf 0 1 5 4 1 2 0,
      cfgOf 0 3 30 88 8 1 0, cfgOf 0 1 5 3 1 2 0, cfgOf 8 34 30 508 1 1 0].map
      (fun c => ((Claims.beginTests c 131072).find? (fun x => !x.1)).map (·.2)) =
      [some (.invalidConfig, 0), some (.invalidConfig, 1), some (.invalidConfig, 2), some (.invalidConfig, 3),
        some (.invalidConfig, 4), some (.invalidConfig, 5), some (.invalidConfig, 6), some (.capacityExceeded, 0),
        some (.invalidConfig, 8), some (.frameCapacity, 0), none, none] := by decide

theorem witness_AbsorbUpdatesEverySlotFromTheOldArray :
    ([848, 36] : List Codeword).length = ([27, 917] : List Codeword).length ∧
    0 < ([27, 917] : List Codeword).length ∧ 1 ≤ 1 ∧ 1 < ([848, 36] : List Codeword).length := by decide

theorem witness_EccStartClearsTheAccumulator : small.ready ∧ done.ready := by decide

theorem witness_EccPushStoresAndAbsorbs :
    small.ready ∧ (absorbing.ready ∧ absorbing.eccPhase = .absorb ∧ absorbing.eccCount < absorbing.snap.ndata ∧
      928 ≤ 928 ∧ 928 < 929) ∧ small.eccPhase ≠ .absorb ∧
    absorbed.ready ∧ absorbed.eccPhase = .absorb ∧ absorbed.snap.ndata ≤ absorbed.eccCount := by decide

theorem witness_EccRunAbsorbsTheRest :
    (absorbing.ready ∧ absorbing.eccPhase = .absorb ∧
      ∀ i, absorbing.eccCount ≤ i → i < absorbing.snap.ndata → absorbing.cwValid i = true) ∧
    (small.ready ∧ small.eccPhase ≠ .absorb) ∧
    (let s := inPhase (withCw small [3]) .absorb 0 [];
      s.ready ∧ s.eccPhase = .absorb ∧ s.eccCount ≤ 1 ∧ 1 < s.snap.ndata ∧ s.cwValid 1 = false ∧
        ∀ j, s.eccCount ≤ j → j < 1 → s.cwValid j = true) ∧
    (absorbed.ready ∧ absorbed.eccPhase = .absorb ∧ absorbed.eccCount = absorbed.snap.ndata) ∧ absorbed.Inv :=
  ⟨by decide, by decide, by decide, by decide, inv_absorbed⟩

theorem witness_EccRunEqualsPushingWhatIsStored :
    absorbing.Inv ∧ absorbing.ready ∧ absorbing.eccPhase = .absorb ∧ absorbing.eccCount < absorbing.snap.ndata ∧
    absorbing.cwValid absorbing.eccCount = true ∧
    ∀ i, absorbing.eccCount ≤ i → i < absorbing.snap.ndata → absorbing.cwValid i = true :=
  ⟨inv_absorbing, by decide, by decide, by decide, by decide, by decide⟩

theorem witness_EccFinEmitsInReverseOrder :
    (absorbed.ready ∧ absorbed.eccPhase = .absorb ∧ absorbed.eccCount = absorbed.snap.ndata ∧ 1 < absorbed.snap.k ∧
      2 < absorbed.snap.ndata ∧ absorbed.snap.ndata + absorbed.snap.k ≤ 5) ∧
    (done.ready ∧ done.eccPhase ≠ .absorb) ∧
    absorbing.ready ∧ absorbing.eccPhase = .absorb ∧ absorbing.eccCount ≠ absorbing.snap.ndata := by decide

theorem witness_EccRdaccRespondsOneSlot :
    (done.ready ∧ done.eccPhase ≠ .idle ∧ 1 < done.snap.k ∧ done.snap.k ≤ 2) ∧ small.ready ∧ small.eccPhase = .idle := by
  decide

theorem witness_EccChkRespondsWhetherTheResidueIsZero :
    done.Inv ∧ (done.ready ∧ done.eccPhase = .done ∧ ∀ i, i < done.snap.ndata + done.snap.k → done.cwValid i = true) ∧
    (small.ready ∧ small.eccPhase ≠ .done) ∧
    (let s := inPhase (withCw small [3, 100, 200, 311]) .done 3 [];
      s.ready ∧ s.eccPhase = .done ∧ 4 < s.snap.ndata + s.snap.k ∧ s.cwValid 4 = false ∧
        ∀ j, j < 4 → s.cwValid j = true) := ⟨inv_done, by decide, by decide, by decide⟩

theorem witness_SumCheckAlwaysHolds :
    small.Inv ∧ small.ready ∧ [0, 928, 200].length = small.snap.ndata ∧ ∀ v ∈ [0, 928, 200], v ≤ 928 :=
  ⟨inv_small, by decide, by decide, by decide⟩

theorem witness_CwWrWritesOneEntry :
    small.ready ∧ (928 ≤ 928 ∧ 4 < small.snap.ndata + small.snap.k) ∧ 928 < 929 ∧
    small.snap.ndata + small.snap.k ≤ 5 := by decide

theorem witness_CwRdRespondsAValidEntry :
    loaded.ready ∧ (4 < loaded.snap.ndata + loaded.snap.k ∧ loaded.cwValid 4 = true) ∧
    loaded.snap.ndata + loaded.snap.k ≤ 5 ∧ small.ready ∧ 4 < small.snap.ndata + small.snap.k ∧
    small.cwValid 4 = false := by decide

theorem witness_PbClrAndFillWriteTheWholeWord : small.ready := by decide

theorem witness_PbSetbAndClrbWriteOneBit :
    (withPb small 0#32).ready ∧ (withPb small 0#32).pbValid = true ∧ 31 < 32 ∧ 32 ≤ 32 ∧ small.ready ∧
    small.pbValid = false := by decide

theorem witness_PbAndiKeepsTheMaskedBits :
    (withPb small 0#32).ready ∧ (withPb small 0#32).pbValid = true ∧ 0xFFFFFF < 2 ^ 24 ∧ small.ready ∧
    small.pbValid = false := by decide

theorem witness_PbGetbAndByteRespondStoredBits :
    (withPb small 0#32).ready ∧ (withPb small 0#32).pbValid = true ∧ 31 < 32 ∧ 32 ≤ 32 ∧ 3 < 4 ∧ 4 ≤ 4 ∧
    small.ready ∧ small.pbValid = false := by decide

theorem witness_BulkWritesCoverTheAllocatedWords :
    small.ready ∧ small.gridValid = false ∧ ready.ready ∧ ready.gridValid = true := by decide

theorem witness_FbSetbAndClrbWriteOneBit :
    ready.ready ∧ ready.gridValid = true ∧ 319 < ready.geom.gridAW * ready.geom.gridH ∧
    ready.geom.gridAW * ready.geom.gridH ≤ 320 ∧ small.ready ∧ small.gridValid = false := by decide

theorem witness_FbGetbAndByteRespondStoredBits :
    ready.ready ∧ ready.gridValid = true ∧ 319 < ready.geom.gridAW * ready.geom.gridH ∧
    ready.geom.gridAW * ready.geom.gridH ≤ 320 ∧ 39 < ready.geom.gridAW * ready.geom.gridH / 8 ∧
    ready.geom.gridAW * ready.geom.gridH / 8 ≤ 40 ∧ small.ready ∧ small.gridValid = false := by decide

theorem witness_PxSetAndClrWriteOnePixel :
    ready.ready ∧ ready.gridValid = true ∧ 153 < ready.geom.gridW ∧ 1 < ready.geom.gridH ∧ ready.geom.gridW ≤ 154 ∧
    ready.geom.gridH ≤ 2 ∧ small.ready ∧ small.gridValid = false := by decide

theorem witness_PxGetRespondsThePixel :
    ready.ready ∧ ready.gridValid = true ∧ 153 < ready.geom.gridW ∧ 1 < ready.geom.gridH ∧ ready.geom.gridW ≤ 154 ∧
    ready.geom.gridH ≤ 2 ∧ small.ready ∧ small.gridValid = false := by decide

/-- Raw byte 20 is the first byte of the top pixel row. -/
theorem witness_RawBytesRunFromTheBottomRow :
    ready.Inv ∧ ready.ready ∧ ready.gridValid = true ∧ 39 < ready.geom.gridH * ready.geom.gridAW / 8 ∧
    ready.geom.gridH * ready.geom.gridAW / 8 ≤ 40 ∧
    (0 < ready.geom.gridH ∧ 8 * 0 < ready.geom.gridAW ∧ 7 < 8 ∧
      20 = (ready.geom.gridH - 1 - 0) * (ready.geom.gridAW / 8) + 0) ∧
    small.ready ∧ small.gridValid = false :=
  ⟨inv_ready, by decide, by decide, by decide, by decide, by decide, by decide, by decide⟩

theorem witness_PatternLoadsReverseTheModules :
    small.ready ∧ (2 ≤ 2 ∧ 928 ≤ 928 ∧ 16 < 17 ∧ 17 ≤ 17) ∧ 2 < 3 ∧ 928 < 929 := by decide

/-- Rows 0, 1 and 2 of the session 2, 8, 2; row 7 is the last. -/
theorem witness_IndicatorsFollowTheFormula :
    let s := opened (cfgOf 2 8 2 8 4 3 8)
    s.ready ∧ (0 < s.snap.rows ∧ 0 % 3 = 0) ∧ (7 < s.snap.rows ∧ 7 % 3 = 1) ∧ (5 < s.snap.rows ∧ 5 % 3 = 2) ∧
    s.snap.rows ≤ 8 := by decide

theorem witness_IndicatorValuesIndexThePatternTable : small.Inv ∧ small.session = true ∧ 0 < small.snap.rows :=
  ⟨inv_small, by decide, by decide⟩

theorem witness_DrawBarAndSpcWriteOneModule :
    ready.ready ∧ ready.gridValid = true ∧ 0 < ready.snap.rows ∧ 153 < ready.geom.symCols ∧
    (0 < ready.snap.modw ∧ 1 < ready.snap.modw * ready.snap.rhm) ∧ ready.snap.rows ≤ 1 ∧ ready.geom.symCols ≤ 154 ∧
    (∀ dx, dx < ready.snap.modw → ∀ dy, dy < ready.snap.modw * ready.snap.rhm →
      319 ≠ Claims.moduleBit ready 0 153 dx dy) ∧ small.ready ∧ small.gridValid = false := by decide

theorem witness_ModulesStayInsideTheSymbolArea :
    (ready.Inv ∧ (∃ t, exec (.drawBar 0 153) ready = .next t) ∧ (∃ t, exec (.drawSpc 0 0) ready = .next t) ∧
      (∃ t, exec (.renderRow 0) ready = .next t) ∧ (∃ t, exec .render ready = .next t) ∧
      (154 < ready.geom.gridAW ∧ ready.geom.gridW - ready.snap.margin ≤ 154)) ∧
    ((withPb ready 0#32).Inv ∧ ∃ t, exec (.drawPb 0 8) (withPb ready 0#32) = .next t) ∧
    ready.Inv ∧ ready.session = true ∧ 0 < ready.snap.rows ∧ 153 < ready.geom.symCols ∧ 0 < ready.snap.modw ∧
    1 < ready.snap.modw * ready.snap.rhm :=
  ⟨⟨inv_ready, ⟨_, rfl⟩, ⟨_, rfl⟩, ⟨_, rfl⟩, ⟨_, rfl⟩, by decide⟩, ⟨inv_pbReady, ⟨_, rfl⟩⟩,
    inv_ready, by decide, by decide, by decide, by decide, by decide⟩

theorem witness_DrawPbDrawsSeventeenModules :
    (withPb ready 0#32).Inv ∧ (let s := withPb ready 0#32;
      s.ready ∧ s.gridValid = true ∧ s.pbValid = true ∧ 0 < s.snap.rows ∧ 8 < s.snap.dcols + 4 ∧
        (16 < 17 ∧ 0 < s.snap.modw ∧ 1 < s.snap.modw * s.snap.rhm) ∧ s.snap.rows ≤ 1 ∧ s.snap.dcols + 4 ≤ 9) ∧
    (small.ready ∧ small.gridValid = false) ∧ ready.ready ∧ ready.pbValid = false :=
  ⟨inv_pbReady, by decide, by decide, by decide, by decide⟩

theorem witness_RenderRowDrawsTheRow :
    ready.Inv ∧ (ready.ready ∧ ready.gridValid = true ∧ 0 < ready.snap.rows ∧
      (∀ c, c < ready.snap.dcols → ready.cwValid (0 * ready.snap.dcols + c) = true) ∧ 16 < 32 ∧
      (153 < ready.geom.symCols ∧ 0 < ready.snap.modw ∧ 1 < ready.snap.modw * ready.snap.rhm)) ∧
    ready.snap.rows ≤ 1 ∧ (small.ready ∧ small.gridValid = false) ∧
    (let s := withGrid (withCw small [3, 100, 200, 311]);
      s.ready ∧ s.gridValid = true ∧ 0 < s.snap.rows ∧ 4 < s.snap.dcols ∧ s.cwValid (0 * s.snap.dcols + 4) = false ∧
        ∀ d, d < 4 → s.cwValid (0 * s.snap.dcols + d) = true) :=
  ⟨inv_ready, by decide, by decide, by decide, by decide⟩

theorem witness_RenderRowEqualsItsCommandSequence :
    ready.Inv ∧ ready.ready ∧ ready.gridValid = true ∧ 0 < ready.snap.rows ∧
    ∀ c, c < ready.snap.dcols → ready.cwValid (0 * ready.snap.dcols + c) = true :=
  ⟨inv_ready, by decide, by decide, by decide, by decide⟩

theorem witness_RenderDrawsTheSymbol :
    ready.Inv ∧ (ready.ready ∧ ready.gridValid = true ∧
      (∀ p, p < ready.snap.rows * ready.snap.dcols → ready.cwValid p = true) ∧
      (154 < ready.geom.gridAW ∧ ready.geom.gridW - ready.snap.margin ≤ 154)) ∧
    (small.ready ∧ small.gridValid = false) ∧
    (let s := withGrid (withCw small [3, 100, 200, 311]);
      s.ready ∧ s.gridValid = true ∧ 4 < s.snap.rows * s.snap.dcols ∧ s.cwValid 4 = false ∧
        ∀ q, q < 4 → s.cwValid q = true) :=
  ⟨inv_ready, by decide, by decide, by decide⟩

theorem witness_RenderEqualsItsRowsAndIsIdempotent :
    ready.Inv ∧ ready.ready ∧ ready.gridValid = true ∧
    ∀ p, p < ready.snap.rows * ready.snap.dcols → ready.cwValid p = true :=
  ⟨inv_ready, by decide, by decide, by decide⟩

end Sys2Proof.Tests
end

section
/-! Every input is answered by a next state: commands through the common gate, then words, then inputs. -/

namespace Sys2Proof.Machine

theorem exec_next (i : Instr) (s : State) : ∃ t, exec i s = .next t := by
  rw [exec_eq]
  exact command_next

theorem illegalCommand_next (w : Word) (s : State) : ∃ t, illegalCommand w s = .next t := by
  unfold illegalCommand
  split
  · exact ⟨_, rfl⟩
  · exact ⟨_, rfl⟩

theorem runWord_next (w : Word) (s : State) : ∃ t, runWord w s = .next t := by
  unfold runWord
  split
  next i _ => exact exec_next i s
  next => exact illegalCommand_next w s

theorem step_next (s : State) : ∃ t, step s = .next t := by
  unfold step
  split
  next => exact ⟨_, rfl⟩
  next w t _ => exact runWord_next w t
  next => exact ⟨_, rfl⟩

/-- Settles O8: a step is the idle step, a reset or one word, and a word is a command behind the common gate or illegal;
none of them stops or refuses. -/
theorem everyInputIsAnsweredByANextState : Obligations.EveryInputIsAnsweredByANextState :=
  ⟨step_next, exec_next⟩

end Sys2Proof.Machine
end

section
/-! SUPPORT. One inversion of the commands: the tests a command makes and the state its operation leaves, the three ways
a command can end, the ways a word and a step can, and what every completed command leaves as it was. -/

namespace Sys2Proof.Machine

variable {s t : State} {i : Instr} {r : Raised} {k : RuleResult}

/-- Every codeword entry of a run is valid (R303). -/
def State.AllValid (s : State) (lo n : Nat) : Prop := ∀ p, lo ≤ p → p < lo + n → s.cwValid p = true

/-- The tests of a command's own rule, as one condition: what they ask when all of them pass. -/
def testsPass : Instr → State → Prop
  | .wrcfg reg _, _ => reg < 7
  | .begin_, s => (Snapshot.ofCfg s.cfg).Legal s.inst.fbWords
  | .eccPush cw, s => s.eccPhase = .absorb ∧ s.eccCount < s.snap.ndata ∧ cw ≤ 928
  | .eccRun, s => s.eccPhase = .absorb ∧ s.AllValid s.eccCount (s.snap.ndata - s.eccCount)
  | .eccFin, s => s.eccPhase = .absorb ∧ s.eccCount = s.snap.ndata
  | .eccRdacc j, s => s.eccPhase ≠ .idle ∧ j < s.snap.k
  | .eccChk, s => s.eccPhase = .done ∧ s.AllValid 0 (s.snap.ndata + s.snap.k)
  | .cwWr idx cw, s => cw ≤ 928 ∧ idx < s.snap.ndata + s.snap.k
  | .cwRd idx, s => idx < s.snap.ndata + s.snap.k ∧ s.cwValid idx = true
  | .pbGetb n, s | .pbSetb n, s | .pbClrb n, s => s.pbValid = true ∧ n < 32
  | .pbAndi _, s => s.pbValid = true
  | .pbByte b, s => s.pbValid = true ∧ b < 4
  | .fbClr, s | .fbFill, s => s.gridValid = true
  | .fbGetb n, s | .fbSetb n, s | .fbClrb n, s => s.gridValid = true ∧ n < s.fbBits
  | .fbByte b, s => s.gridValid = true ∧ b < s.fbBits / 8
  | .pxSet x y, s | .pxClr x y, s | .pxGet x y, s => s.gridValid = true ∧ x < s.geom.gridW ∧ y < s.geom.gridH
  | .gridRawb n, s => s.gridValid = true ∧ n < s.geom.gridH * s.geom.gridAW / 8
  | .patLd c v, _ => c ≤ 2 ∧ v ≤ 928
  | .indL row, s | .indR row, s => row < s.snap.rows
  | .drawBar row m, s | .drawSpc row m, s => s.gridValid = true ∧ row < s.snap.rows ∧ m < s.geom.symCols
  | .drawPb row slot, s => s.gridValid = true ∧ s.pbValid = true ∧ row < s.snap.rows ∧ slot < s.snap.dcols + 4
  | .renderRow row, s => s.gridValid = true ∧ row < s.snap.rows ∧ s.AllValid (row * s.snap.dcols) s.snap.dcols
  | .render, s => s.gridValid = true ∧ s.AllValid 0 (s.snap.rows * s.snap.dcols)
  | _, _ => True

/-- The state a command's operation leaves once its tests have passed. -/
def operation : Instr → State → State
  | .nop, s => s
  | .wrcfg reg imm16, s => { s with cfg := s.cfg.set reg (BitVec.ofNat 16 imm16) }
  | .rdreg reg, s => s.respond (s.register reg)
  | .begin_, s => s.openSession (Snapshot.ofCfg s.cfg)
  | .sreset, s => s.resetNow
  | .eccStart, s => { s with acc := s.acc.fill 0 s.snap.k 0, eccCount := 0, eccPhase := .absorb }
  | .eccPush cw, s =>
    { (s.storeCws s.eccCount [toCodeword cw]).setAcc (absorb s.accSlots (toCodeword cw) s.coeffs) with
      eccCount := s.eccCount + 1 }
  | .eccRun, s =>
    { s.setAcc (absorbAll s.accSlots (s.cwRange s.eccCount (s.snap.ndata - s.eccCount)) s.coeffs) with
      eccCount := s.snap.ndata }
  | .eccFin, s =>
    { (s.setAcc (s.accSlots.map negmod)).storeCws s.snap.ndata (s.accSlots.map negmod).reverse with eccPhase := .done }
  | .eccRdacc j, s => s.respondNat (s.accAt j).val
  | .eccChk, s => { s.setAcc s.residue with eccPhase := .checked }.respondBit (s.residue.all (· == 0))
  | .cwWr idx cw, s => { s with cw := s.cw.write 0 idx (toCodeword cw), cwv := s.cwv.write false idx true }
  | .cwRd idx, s => s.respondNat (s.cwAt idx).val
  | .pbClr, s => s.setPb 0x00000000#32
  | .pbFill, s => s.setPb 0xFFFFFFFF#32
  | .pbGetb n, s => s.respondBit (s.pb.getLsbD n)
  | .pbSetb n, s => { s with pb := putBit s.pb n true }
  | .pbClrb n, s => { s with pb := putBit s.pb n false }
  | .pbAndi mask, s => { s with pb := s.pb &&& BitVec.ofNat 32 mask }
  | .pbByte b, s => s.respondNat (extractByte s.pb.getLsbD b)
  | .fbClr, s => s.fillFb 0x00#8
  | .fbFill, s => s.fillFb 0xFF#8
  | .fbGetb n, s => s.respondBit (fbBit s.fb n)
  | .fbSetb n, s => s.putFbBit n true
  | .fbClrb n, s => s.putFbBit n false
  | .fbByte b, s => s.respondNat (extractByte (fbBit s.fb) b)
  | .gridInit, s => { s.fillFb 0x00#8 with gridValid := true }
  | .pxSet x y, s => s.putFbBit (s.pixelBit x y) true
  | .pxClr x y, s => s.putFbBit (s.pixelBit x y) false
  | .pxGet x y, s => s.respondBit (fbBit s.fb (s.pixelBit x y))
  | .gridRawb n, s => s.respondNat (extractByte (fbBit s.fb) (s.rawByteIndex n))
  | .patLd c v, s => s.setPb (loadPattern (s.patAt c v))
  | .patStart, s => s.setPb (loadPattern s.inst.startPattern)
  | .patStop, s => s.setPb (loadPattern s.inst.stopPattern)
  | .indL row, s => s.respondNat (s.snap.left row)
  | .indR row, s => s.respondNat (s.snap.right row)
  | .drawBar row m, s => { s with fb := s.drawModule row m true s.fb }
  | .drawSpc row m, s => { s with fb := s.drawModule row m false s.fb }
  | .drawPb row slot, s => { s with fb := s.drawPattern row slot s.pb s.fb }
  | .renderRow row, s => s.rendered (s.drawRow row s.fb)
  | .render, s => s.rendered ((List.range s.snap.rows).foldl (fun fb row => s.drawRow row fb) s.fb)

theorem ok_eq_ok {u : State} : (Except.ok u : RuleResult) = .ok t ↔ t = u := by
  rw [Except.ok.injEq, eq_comm]

theorem checkSettings_eq_ok {S : Snapshot} {n : Nat} (hk : S.k = 2 <<< S.level) :
    checkSettings S n k = .ok t ↔ S.Legal n ∧ k = .ok t := by
  simp only [checkSettings, need_eq_ok]
  constructor
  · rintro ⟨h0, h1, h2, h3, h4, h5, h6, h7, h8, ⟨hw, hh, hf⟩, hok⟩
    exact ⟨⟨h0, h1, h2, h3, h4, h5, h6, hk, h7, h8, hw, hh, hf⟩, hok⟩
  · rintro ⟨h, hok⟩
    exact ⟨h.level, h.rows, h.dcols, h.ndata, h.modw, h.rhm, h.margin, h.capacity, h.cells,
      ⟨h.width, h.height, h.frame⟩, hok⟩

/-- A command's own rule answers a state exactly when its tests pass, and then the state its operation leaves. -/
theorem ownRule_eq_ok : ownRule i s = .ok t ↔ testsPass i s ∧ t = operation i s := by
  cases i with
  | begin_ =>
    have hk : (Snapshot.ofCfg s.cfg).k = 2 <<< (Snapshot.ofCfg s.cfg).level := rfl
    simp only [ownRule, beginRule, checkSettings_eq_ok hk, testsPass, operation, ok_eq_ok]
  | _ =>
    simp only [ownRule, wrcfgRule, eccStartRule, eccPushRule, eccRunRule, eccFinRule, eccRdaccRule, eccChkRule, cwWrRule,
      cwRdRule, pbGetbRule, pbPutRule, pbAndiRule, pbByteRule, fbGetbRule, fbPutRule, fbByteRule, gridInitRule,
      pxSetRule, pxClrRule, pxGetRule, needPixel, gridRawbRule, patLdRule, indLRule, indRRule, drawBarRule, drawSpcRule,
      needModule, drawPbRule, renderRowRule, renderRule, need_eq_ok, needIndex_eq_ok, needCodeword_eq_ok,
      needPhase_eq_ok, needGrid_eq_ok, needPb_eq_ok, needValid_eq_ok, testsPass, State.AllValid, operation, ok_eq_ok,
      and_assoc, true_and]

/-! What a rule can raise. -/

/-- A rule's answer raises only faults of R290, never "no fault". -/
def RuleResult.RaisesFaults (k : RuleResult) : Prop := ∀ r, k = .error r → r.1 ≠ .noFault

@[simp] theorem raisesFaults_ok : RuleResult.RaisesFaults (.ok t) := fun _ h => nomatch h

@[simp] theorem raisesFaults_need {p : Prop} [Decidable p] :
    RuleResult.RaisesFaults (need p r k) ↔ (¬p → r.1 ≠ .noFault) ∧ (p → k.RaisesFaults) := by
  by_cases hp : p <;> simp [need, hp, RuleResult.RaisesFaults]

@[simp] theorem raisesFaults_needValid {lo n : Nat} :
    RuleResult.RaisesFaults (needValid s lo n k) ↔ (s.firstInvalid lo n = none → k.RaisesFaults) := by
  unfold needValid
  split <;> simp [*, RuleResult.RaisesFaults]

theorem ownRule_raisesFaults (i : Instr) (s : State) : RuleResult.RaisesFaults (ownRule i s) := by
  cases i <;>
    simp [ownRule, wrcfgRule, beginRule, checkSettings, eccStartRule, eccPushRule, eccRunRule, eccFinRule, eccRdaccRule,
      eccChkRule, cwWrRule, cwRdRule, pbGetbRule, pbPutRule, pbAndiRule, pbByteRule, fbGetbRule, fbPutRule, fbByteRule,
      gridInitRule, pxSetRule, pxClrRule, pxGetRule, needPixel, gridRawbRule, patLdRule, indLRule, indRRule, drawBarRule,
      drawSpcRule, needModule, drawPbRule, renderRowRule, renderRule, needIndex, needCodeword, needPhase, needGrid, needPb]

/-- The commands that run while `FAULTED` raise nothing. -/
theorem gateOf_ne_always_of_error (h : ownRule i s = .error r) : gateOf i ≠ .always := by
  cases i with
  | nop | rdreg | sreset => simp [ownRule] at h
  | _ => simp [gateOf]

/-! The three ways a command ends. -/

/-- The ways a command can end (R105, R292): dropped, faulting, or completed. -/
theorem exec_cases (h : exec i s = .next t) :
    (s.faulted = true ∧ gateOf i ≠ .always ∧ t = s) ∨
    (s.faulted = false ∧ ∃ r, r.1 ≠ .noFault ∧ t = s.raise r (encode i)) ∨
    ((s.faulted = false ∨ gateOf i = .always) ∧ (s.session = true ∨ gateOf i ≠ .session) ∧ testsPass i s ∧
      t = operation i s) := by
  rw [exec_eq] at h
  obtain ⟨hf, hg, ht⟩ | ⟨hf, -, -, ht⟩ | ⟨hf, hs, ⟨r, hr, ht⟩ | hok⟩ := command_cases h
  · exact .inl ⟨hf, hg, ht⟩
  · exact .inr (.inl ⟨hf, (.sequence, 4), by simp, ht⟩)
  · exact .inr (.inl ⟨hf.resolve_right (gateOf_ne_always_of_error hr), r, ownRule_raisesFaults i s r hr, ht⟩)
  · exact .inr (.inr ⟨hf, hs, ownRule_eq_ok.1 hok⟩)

theorem gateOf_eq_always_iff : gateOf i = .always ↔ Claims.runsWhileFaulted i = true := by
  cases i <;> simp [gateOf, Claims.runsWhileFaulted]

/-! Words and inputs. -/

/-- The ways a word can end: a command, an illegal word dropped, or one that faults (R84, R105). -/
theorem runWord_cases {w : Word} (h : runWord w s = .next t) :
    (∃ i, decode w = .ok i ∧ exec i s = .next t) ∨ (s.faulted = true ∧ t = s) ∨
    (s.faulted = false ∧ t = s.raise (.illegalCommand, 0) w) := by
  unfold runWord at h
  split at h
  next i hi => exact .inl ⟨i, hi, h⟩
  next =>
    unfold illegalCommand at h
    split at h
    next hf => cases h; exact .inr (.inl ⟨hf, rfl⟩)
    next hf => cases h; exact .inr (.inr ⟨by simpa using hf, rfl⟩)

/-- The inputs a step can take (R72, R304, R320). -/
theorem step_cases (h : step s = .next t) :
    (s.port = [] ∧ t = s) ∨
    (∃ rest, s.port = .hardwareReset :: rest ∧ t = { s with port := rest }.resetNow) ∨
    (∃ w rest, s.port = .command w :: rest ∧ runWord w { s with port := rest } = .next t) := by
  unfold step State.takeInput at h
  match hp : s.port with
  | [] => simp only [hp] at h; cases h; exact .inl ⟨rfl, rfl⟩
  | .hardwareReset :: rest => simp only [hp] at h; cases h; exact .inr (.inl ⟨rest, rfl, rfl⟩)
  | .command w :: rest => simp only [hp] at h; exact .inr (.inr ⟨w, rest, rfl, h⟩)

/-! What a completed command leaves: the parameters, the port, the fault record, the responses. -/

@[simp] theorem operation_inst (i : Instr) (s : State) : (operation i s).inst = s.inst := by cases i <;> rfl

@[simp] theorem operation_port (i : Instr) (s : State) : (operation i s).port = s.port := by cases i <;> rfl

/-- A completed command other than `SRESET` leaves the fault record as it was (R292). -/
theorem operation_faultRecord (s : State) (h : i ≠ .sreset) :
    (operation i s).faulted = s.faulted ∧ (operation i s).err = s.err ∧ (operation i s).errInfo = s.errInfo ∧
      (operation i s).errCmd = s.errCmd := by
  cases i with
  | sreset => exact absurd rfl h
  | _ => exact ⟨rfl, rfl, rfl, rfl⟩

theorem operation_rsp_of_responds (s : State) (h : Claims.responds i = true) :
    ∃ w, (operation i s).rsp = s.rsp ++ [w] := by
  cases i with
  | rdreg | eccRdacc | eccChk | cwRd | pbGetb | pbByte | fbGetb | fbByte | pxGet | gridRawb | indL | indR =>
    exact ⟨_, rfl⟩
  | _ => nomatch h

theorem operation_rsp_of_not_responds (s : State) (h : Claims.responds i = false) : (operation i s).rsp = s.rsp := by
  cases i with
  | rdreg | eccRdacc | eccChk | cwRd | pbGetb | pbByte | fbGetb | fbByte | pxGet | gridRawb | indL | indR => nomatch h
  | _ => rfl

end Sys2Proof.Machine
end

section
/-! SUPPORT. The block's invariant (R31 to R35, R38, R60, R103) part by part: reset has it, faults and the port do not
touch it, and every completed command keeps each part. -/

namespace Sys2Proof.Machine

variable {s t : State} {i : Instr}

/-! The geometry of a legal snapshot: every address a command forms is inside the allocated frame words. -/

section
variable {S : Snapshot} {fbWords : Nat}

theorem Snapshot.gridW_le_gridAW (S : Snapshot) : S.gridW ≤ S.gridAW := by
  simp only [Snapshot.gridAW, Nat.shiftRight_eq_div_pow, Nat.shiftLeft_eq]
  omega

theorem Snapshot.gridAW_mul_gridH_mod (S : Snapshot) : S.gridAW * S.gridH % 32 = 0 := by
  rw [Snapshot.gridAW, Nat.shiftLeft_eq, Nat.mul_right_comm]
  exact Nat.mul_mod_left _ _

/-- Every allocated bit lies inside the frame memory (R39, R103). -/
theorem Snapshot.Legal.gridBits_le (h : S.Legal fbWords) : S.gridAW * S.gridH ≤ 8 * (4 * fbWords) := by
  have := h.frame
  have := S.gridAW_mul_gridH_mod
  omega

theorem Snapshot.Legal.k_le (h : S.Legal fbWords) : S.k ≤ 512 := by
  rw [h.k, Nat.shiftLeft_eq]
  have : 2 ^ S.level ≤ 2 ^ 8 := Nat.pow_le_pow_right (by decide) h.level
  omega

/-- A pixel of the grid is an allocated bit (R65). -/
theorem Snapshot.pixelBit_lt {x y : Nat} (hx : x < S.gridW) (hy : y < S.gridH) :
    y * S.gridAW + x < S.gridAW * S.gridH :=
  calc y * S.gridAW + x < y * S.gridAW + S.gridAW := by have := S.gridW_le_gridAW; omega
    _ = (y + 1) * S.gridAW := by ring
    _ ≤ S.gridH * S.gridAW := Nat.mul_le_mul_right _ hy
    _ = S.gridAW * S.gridH := Nat.mul_comm _ _

/-- A pixel column of a module of the symbol is a column of the grid (R218). -/
theorem Snapshot.moduleX_lt {m dx : Nat} (hm : m < S.symCols) (hx : dx < S.modw) :
    S.margin + m * S.modw + dx < S.gridW := by
  have : (m + 1) * S.modw ≤ S.symCols * S.modw := Nat.mul_le_mul_right _ hm
  rw [Nat.succ_mul] at this
  unfold Snapshot.gridW
  omega

/-- A pixel row of a symbol row is a row of the grid (R218). -/
theorem Snapshot.moduleY_lt {row dy : Nat} (hrow : row < S.rows) (hy : dy < S.modw * S.rhm) :
    S.margin + row * S.modw * S.rhm + dy < S.gridH := by
  have : (row + 1) * (S.modw * S.rhm) ≤ S.rows * (S.modw * S.rhm) := Nat.mul_le_mul_right _ hrow
  rw [Nat.succ_mul, ← Nat.mul_assoc, ← Nat.mul_assoc] at this
  unfold Snapshot.gridH
  omega

end

/-! What a sound open session gives. -/

section
variable (hs : s.SessionOk) (ho : s.session = true)
include hs ho

theorem State.SessionOk.legal : s.snap.Legal s.inst.fbWords := (hs ho).1

theorem State.SessionOk.geom : s.geom = Geometry.ofSnapshot s.snap := (hs ho).2

theorem State.SessionOk.fbBits_le : s.fbBits ≤ 8 * (4 * s.inst.fbWords) := by
  rw [State.fbBits, hs.geom ho]
  exact (hs.legal ho).gridBits_le

theorem State.SessionOk.fbUsed_le : 4 * s.geom.fbUsed ≤ 4 * s.inst.fbWords := by
  rw [hs.geom ho]
  exact Nat.mul_le_mul_left 4 (hs.legal ho).frame

theorem State.SessionOk.pixelBit_lt {x y : Nat} (hx : x < s.geom.gridW) (hy : y < s.geom.gridH) :
    s.pixelBit x y < s.fbBits := by
  rw [State.pixelBit, State.fbBits]
  rw [hs.geom ho] at hx hy ⊢
  exact Snapshot.pixelBit_lt hx hy

/-- The bits of a module of the symbol are allocated (R218). -/
theorem State.SessionOk.moduleBits_lt {row m j : Nat} (hrow : row < s.snap.rows) (hm : m < s.geom.symCols)
    (hj : j ∈ s.moduleBits row m) : j < s.fbBits := by
  obtain ⟨dx, dy, hx, hy, rfl⟩ := mem_moduleBits.1 hj
  rw [State.fbBits]
  rw [hs.geom ho] at hm ⊢
  exact Snapshot.pixelBit_lt (Snapshot.moduleX_lt hm hx) (Snapshot.moduleY_lt hrow hy)

/-- The bits `drawpat` writes are allocated (R221). -/
theorem State.SessionOk.patternDraws_lt {row slot : Nat} {pb : Word} (hrow : row < s.snap.rows)
    (hslot : slot < s.snap.dcols + 4) : ∀ p ∈ s.patternDraws row slot pb, ∀ j ∈ p.1, j < s.fbBits := by
  intro p hp j hj
  obtain ⟨m, hm, rfl⟩ := List.mem_map.1 hp
  have hm := List.mem_range.1 hm
  have hcol : slot * 17 + m < s.geom.symCols := by
    rw [hs.geom ho]
    show slot * 17 + m < (s.snap.dcols + 4) * 17 + 1
    omega
  exact hs.moduleBits_lt ho hrow hcol hj

/-- The bits a render of a row writes are allocated (R223). -/
theorem State.SessionOk.rowDraws_lt {row : Nat} (hrow : row < s.snap.rows) :
    ∀ p ∈ s.rowDraws row, ∀ j ∈ p.1, j < s.fbBits := by
  intro p hp
  rcases List.mem_append.1 hp with hp | hp
  · obtain ⟨⟨pat, slot⟩, hq, hp⟩ := List.mem_flatMap.1 hp
    have hslot : slot < (s.rowPatterns row).length := by simpa using (List.mem_zipIdx hq).2.1
    have hlen : (s.rowPatterns row).length = s.snap.dcols + 4 := by simp [State.rowPatterns]
    exact hs.patternDraws_lt ho hrow (hlen ▸ hslot) p hp
  · rw [List.mem_singleton.1 hp]
    have hlast : s.geom.symCols - 1 < s.geom.symCols := by
      rw [hs.geom ho]
      exact Nat.lt_succ_self _
    exact fun j hj => hs.moduleBits_lt ho hrow hlast hj

end

/-! The corrector's slot lists have the session's length. -/

theorem length_absorb {A C : List Codeword} (cw : Codeword) (h : A.length = C.length) :
    (absorb A cw C).length = C.length := by
  cases C with
  | nil => rfl
  | cons c cs => simp only [absorb, List.length_cons, List.length_zipWith] at h ⊢; omega

theorem length_absorbAll {A C : List Codeword} (cws : List Codeword) (h : A.length = C.length) :
    (absorbAll A cws C).length = C.length := by
  unfold absorbAll
  induction cws generalizing A with
  | nil => exact h
  | cons cw cws ih => exact ih (length_absorb cw h)

@[simp] theorem State.length_accSlots (s : State) : s.accSlots.length = s.snap.k := by simp [State.accSlots]

@[simp] theorem State.length_coeffs (s : State) : s.coeffs.length = s.snap.k := by simp [State.coeffs]

@[simp] theorem State.length_residue (s : State) : s.residue.length = s.snap.k := by
  rw [State.residue, length_absorbAll _ (by simp), State.length_coeffs]

/-! Valid bits after a write. -/

theorem cwv_read_writeList_true {m : Memory Bool} {lo p : Nat} (vs : List Codeword)
    (h : m.read false p = true ∨ lo ≤ p ∧ p < lo + vs.length) :
    (m.writeList false lo (vs.map fun _ => true)).read false p = true := by
  rw [Memory.read_writeList]
  split
  next hp =>
    obtain ⟨hlo, hhi⟩ := hp
    rw [List.length_map] at hhi
    rw [List.getD_eq_getElem _ _ (by rw [List.length_map]; omega), List.getElem_map]
  next hp => exact h.resolve_right (by rwa [List.length_map] at hp)

/-! The fault record. -/

theorem State.FaultRecordOk.raise {r : Raised} (hr : r.1 ≠ .noFault) (w : Word) : (s.raise r w).FaultRecordOk :=
  ⟨⟨fun _ => hr, fun _ => rfl⟩, nofun⟩

theorem operation_faultRecordOk (h : s.FaultRecordOk) : (operation i s).FaultRecordOk := by
  by_cases hi : i = .sreset
  · subst hi; exact ⟨⟨nofun, fun h => absurd rfl h⟩, fun _ => ⟨rfl, rfl⟩⟩
  · obtain ⟨hf, he, hinfo, hcmd⟩ := operation_faultRecord s hi
    exact ⟨by rw [hf, he]; exact h.flag, by rw [hf, hinfo, hcmd]; exact h.clear⟩

/-! The session. -/

theorem operation_noSessionOk (h : s.NoSessionOk) (hg : s.session = true ∨ gateOf i ≠ .session) :
    (operation i s).NoSessionOk := by
  cases i with
  | nop | wrcfg | rdreg => exact h
  | begin_ => nofun
  | sreset => exact fun _ => ⟨rfl, rfl, rfl, rfl, rfl, rfl, rfl⟩
  | _ =>
    intro (hclosed : s.session = false)
    have ho : s.session = true := hg.resolve_right fun hne => hne rfl
    rw [ho] at hclosed
    nomatch hclosed

theorem operation_sessionOk (h : s.SessionOk) (hp : testsPass i s) : (operation i s).SessionOk := by
  cases i with
  | begin_ => exact fun _ => ⟨hp, rfl⟩
  | sreset => nofun
  | _ => exact h

/-! The corrector. -/

/-- The corrector's part of the invariant reads four fields only. -/
theorem State.CorrectorOk.congr (h : s.CorrectorOk) (hc : t.eccCount = s.eccCount) (hp : t.eccPhase = s.eccPhase)
    (hs : t.snap = s.snap) (hv : ∀ p, s.cwValid p = true → t.cwValid p = true) : t.CorrectorOk := by
  obtain ⟨hcount, hidle, habsorbed, hfinished⟩ := h
  rw [← hc, ← hs] at hcount
  rw [← hc, ← hp] at hidle
  rw [← hc] at habsorbed
  rw [← hc, ← hp, ← hs] at hfinished
  exact ⟨hcount, hidle, fun p hlt => hv p (habsorbed p hlt),
    fun hd => ⟨(hfinished hd).1, fun p hlt => hv p ((hfinished hd).2 p hlt)⟩⟩

theorem operation_correctorOk (h : s.CorrectorOk) (hp : testsPass i s) : (operation i s).CorrectorOk := by
  cases i with
  | begin_ | sreset => exact ⟨Nat.zero_le _, fun _ => rfl, nofun, nofun⟩
  | eccStart => exact ⟨Nat.zero_le _, nofun, nofun, nofun⟩
  | eccPush cw =>
    obtain ⟨hphase, hlt, -⟩ := hp
    have hne : (operation (.eccPush cw) s).eccPhase = .absorb := hphase
    refine ⟨hlt, by simp [hne], fun p hlt => ?_, by simp [hne]⟩
    refine cwv_read_writeList_true [toCodeword cw] ?_
    have hlt : p < s.eccCount + 1 := hlt
    by_cases hp : p < s.eccCount
    · exact .inl (h.absorbed p hp)
    · exact .inr ⟨by omega, hlt⟩
  | eccRun =>
    obtain ⟨hphase, hvalid⟩ := hp
    have hne : (operation .eccRun s).eccPhase = .absorb := hphase
    refine ⟨Nat.le_refl _, by simp [hne], fun p hlt => ?_, by simp [hne]⟩
    have hlt : p < s.snap.ndata := hlt
    by_cases hp : p < s.eccCount
    · exact h.absorbed p hp
    · exact hvalid p (by omega) (by omega)
  | eccFin =>
    obtain ⟨-, hcount⟩ := hp
    have hv : ∀ p, p < s.snap.ndata + s.snap.k → (operation .eccFin s).cwValid p = true := fun p hlt => by
      refine cwv_read_writeList_true _ ?_
      rw [List.length_reverse, List.length_map, State.length_accSlots]
      by_cases hp : p < s.snap.ndata
      · exact .inl (h.absorbed p (hcount ▸ hp))
      · exact .inr ⟨by omega, hlt⟩
    exact ⟨h.count, nofun, fun p hlt => hv p (Nat.lt_of_lt_of_le hlt (Nat.le_trans h.count (Nat.le_add_right _ _))),
      fun _ => ⟨hcount, hv⟩⟩
  | eccChk =>
    exact ⟨h.count, nofun, h.absorbed, fun _ => h.finished (.inl hp.1)⟩
  | cwWr idx cw =>
    refine h.congr rfl rfl rfl fun p hv => ?_
    show (s.cwv.write false idx true).read false p = true
    rw [Memory.read_write]
    split
    · rfl
    · exact hv
  | _ => exact h.congr rfl rfl rfl fun _ hv => hv

/-! The memories. -/

/-- In canonical form and inside a space of `n` cells (R60). -/
def Memory.Ok {α : Type} (d : α) (n : Nat) (m : Memory α) : Prop := m.wf d ∧ m.below n

theorem Memory.Ok.nil {α : Type} {d : α} {n : Nat} : Memory.Ok d n [] := ⟨Memory.wf_nil, nofun⟩

theorem Memory.Ok.writeList {α : Type} [DecidableEq α] {d : α} {n : Nat} {m : Memory α} (h : m.Ok d n) {base : Nat}
    {vs : List α} (hb : base + vs.length ≤ n) : Memory.Ok d n (m.writeList d base vs) :=
  ⟨Memory.wf_writeList h.1 base vs, Memory.below_writeList h.2 hb⟩

theorem Memory.Ok.write {α : Type} [DecidableEq α] {d : α} {n : Nat} {m : Memory α} (h : m.Ok d n) {a : Nat}
    (ha : a < n) (v : α) : Memory.Ok d n (m.write d a v) :=
  ⟨Memory.wf_write h.1 a v, Memory.below_write h.2 ha v⟩

theorem Memory.Ok.fill {α : Type} [DecidableEq α] {d : α} {n : Nat} {m : Memory α} (h : m.Ok d n) {c : Nat}
    (hc : c ≤ n) (v : α) : Memory.Ok d n (m.fill d c v) :=
  ⟨Memory.wf_fill h.1 c v, Memory.below_fill h.2 hc v⟩

theorem Memory.Ok.draws {n : Nat} {fb : Memory Byte} (h : fb.Ok 0#8 n) {L : List (List Nat × Bool)}
    (hL : ∀ p ∈ L, ∀ j ∈ p.1, j < 8 * n) : Memory.Ok 0#8 n (draws fb L) :=
  ⟨draws_wf h.1 L, draws_below h.2 hL⟩

section
variable (hs : s.SessionOk) (ho : s.session = true) (h : s.fb.Ok 0#8 (4 * s.inst.fbWords))
include hs ho h

theorem State.SessionOk.fbSetBit_ok {n : Nat} (hn : n < s.fbBits) (b : Bool) :
    Memory.Ok 0#8 (4 * s.inst.fbWords) (fbSetBit s.fb n b) :=
  ⟨fbSetBit_wf h.1 n b, fbSetBit_below h.2 (Nat.lt_of_lt_of_le hn (hs.fbBits_le ho)) b⟩

theorem State.SessionOk.draws_ok {L : List (List Nat × Bool)} (hL : ∀ p ∈ L, ∀ j ∈ p.1, j < s.fbBits) :
    Memory.Ok 0#8 (4 * s.inst.fbWords) (draws s.fb L) :=
  h.draws fun p hp j hj => Nat.lt_of_lt_of_le (hL p hp j hj) (hs.fbBits_le ho)

theorem State.SessionOk.drawModule_ok {row m : Nat} (hrow : row < s.snap.rows) (hm : m < s.geom.symCols) (b : Bool) :
    Memory.Ok 0#8 (4 * s.inst.fbWords) (s.drawModule row m b s.fb) := by
  show Memory.Ok _ _ (draws s.fb [(s.moduleBits row m, b)])
  refine hs.draws_ok ho h fun p hp j hj => ?_
  rw [List.mem_singleton.1 hp] at hj
  exact hs.moduleBits_lt ho hrow hm hj

end

section
variable (hs : s.SessionOk) (hg : s.session = true ∨ gateOf i ≠ .session)
include hs hg

theorem operation_acc_ok (h : s.acc.Ok 0 accSlotCount) : (operation i s).acc.Ok 0 accSlotCount := by
  have hk (hi : gateOf i = .session) : s.snap.k ≤ accSlotCount := (hs.legal (hg.resolve_right (· hi))).k_le
  have hw (hi : gateOf i = .session) {A : List Codeword} (hA : A.length = s.snap.k) :
      Memory.Ok 0 accSlotCount (s.acc.writeList 0 0 A) := h.writeList (by rw [hA, Nat.zero_add]; exact hk hi)
  cases i with
  | sreset => exact .nil
  | eccStart => exact h.fill (hk rfl) 0
  | eccPush cw => exact hw rfl ((length_absorb _ (by simp)).trans s.length_coeffs)
  | eccRun => exact hw rfl ((length_absorbAll _ (by simp)).trans s.length_coeffs)
  | eccFin => exact hw rfl (by simp)
  | eccChk => exact hw rfl s.length_residue
  | _ => exact h

theorem operation_cw_ok (hp : testsPass i s) (h : s.cw.Ok 0 cwCap) : (operation i s).cw.Ok 0 cwCap := by
  have hcap (hi : gateOf i = .session) : s.snap.ndata + s.snap.k ≤ cwCap :=
    (hs.legal (hg.resolve_right (· hi))).capacity
  cases i with
  | sreset => exact .nil
  | eccPush cw =>
    obtain ⟨-, hlt, -⟩ := hp
    exact h.writeList (show s.eccCount + 1 ≤ cwCap by have := hcap rfl; omega)
  | eccFin => exact h.writeList (by simpa using hcap rfl)
  | cwWr idx cw => exact h.write (Nat.lt_of_lt_of_le hp.2 (hcap rfl)) _
  | _ => exact h

theorem operation_fb_ok (hp : testsPass i s) (h : s.fb.Ok 0#8 (4 * s.inst.fbWords)) :
    (operation i s).fb.Ok 0#8 (4 * s.inst.fbWords) := by
  have ho (hi : gateOf i = .session) : s.session = true := hg.resolve_right (· hi)
  cases i with
  | sreset => exact .nil
  | fbClr | fbFill | gridInit => exact h.fill (hs.fbUsed_le (ho rfl)) _
  | fbSetb n | fbClrb n => exact hs.fbSetBit_ok (ho rfl) h hp.2 _
  | pxSet x y | pxClr x y =>
    obtain ⟨-, hx, hy⟩ := hp
    exact hs.fbSetBit_ok (ho rfl) h (hs.pixelBit_lt (ho rfl) hx hy) _
  | drawBar row m | drawSpc row m =>
    obtain ⟨-, hrow, hm⟩ := hp
    exact hs.drawModule_ok (ho rfl) h hrow hm _
  | drawPb row slot =>
    obtain ⟨-, -, hrow, hslot⟩ := hp
    show Memory.Ok _ _ (s.drawPattern row slot s.pb s.fb)
    rw [drawPattern_eq]
    exact hs.draws_ok (ho rfl) h (hs.patternDraws_lt (ho rfl) hrow hslot)
  | renderRow row =>
    obtain ⟨-, hrow, -⟩ := hp
    show Memory.Ok _ _ (s.drawRow row s.fb)
    rw [drawRow_eq]
    exact hs.draws_ok (ho rfl) h (hs.rowDraws_lt (ho rfl) hrow)
  | render =>
    show Memory.Ok _ _ ((List.range s.snap.rows).foldl (fun fb row => s.drawRow row fb) s.fb)
    rw [drawRows_eq]
    refine hs.draws_ok (ho rfl) h fun p hp => ?_
    obtain ⟨row, hrow, hp⟩ := List.mem_flatMap.1 hp
    exact hs.rowDraws_lt (ho rfl) (List.mem_range.1 hrow) p hp
  | _ => exact h

end

theorem operation_cwv_ok (hp : testsPass i s) (h : s.cwv.Ok false (s.snap.ndata + s.snap.k)) :
    (operation i s).cwv.Ok false ((operation i s).snap.ndata + (operation i s).snap.k) := by
  cases i with
  | begin_ | sreset => exact .nil
  | eccPush cw =>
    obtain ⟨-, hlt, -⟩ := hp
    exact h.writeList (show s.eccCount + 1 ≤ s.snap.ndata + s.snap.k by omega)
  | eccFin => exact h.writeList (by simp)
  | cwWr idx cw => exact h.write hp.2 true
  | _ => exact h

theorem operation_memoriesOk (hs : s.SessionOk) (hg : s.session = true ∨ gateOf i ≠ .session) (hp : testsPass i s)
    (h : s.MemoriesOk) : (operation i s).MemoriesOk where
  acc := operation_acc_ok hs hg h.acc
  cw := operation_cw_ok hs hg hp h.cw
  cwv := operation_cwv_ok hp h.cwv
  fb := by rw [operation_inst]; exact operation_fb_ok hs hg hp h.fb

/-! The whole invariant, through everything a step can do. -/

theorem State.Inv.after_operation (h : s.Inv) (hg : s.session = true ∨ gateOf i ≠ .session) (hp : testsPass i s) :
    (operation i s).Inv where
  memories := operation_memoriesOk h.session hg hp h.memories
  fault := operation_faultRecordOk h.fault
  noSession := operation_noSessionOk h.noSession hg
  session := operation_sessionOk h.session hp
  corrector := operation_correctorOk h.corrector hp

theorem State.Inv.raise (h : s.Inv) {r : Raised} (hr : r.1 ≠ .noFault) (w : Word) : (s.raise r w).Inv where
  memories := ⟨h.memories.acc, h.memories.cw, h.memories.cwv, h.memories.fb⟩
  fault := .raise hr w
  noSession := h.noSession
  session := h.session
  corrector := h.corrector.congr rfl rfl rfl fun _ hv => hv

/-- The invariant does not speak of what the host still presents. -/
theorem State.Inv.with_port (h : s.Inv) (p : List HostInput) : State.Inv { s with port := p } where
  memories := ⟨h.memories.acc, h.memories.cw, h.memories.cwv, h.memories.fb⟩
  fault := ⟨h.fault.flag, h.fault.clear⟩
  noSession := h.noSession
  session := h.session
  corrector := h.corrector.congr rfl rfl rfl fun _ hv => hv

theorem State.resetNow_inv (s : State) : s.resetNow.Inv where
  memories := ⟨Memory.Ok.nil, Memory.Ok.nil, Memory.Ok.nil, Memory.Ok.nil⟩
  fault := ⟨⟨nofun, fun h => absurd rfl h⟩, fun _ => ⟨rfl, rfl⟩⟩
  noSession := fun _ => ⟨rfl, rfl, rfl, rfl, rfl, rfl, rfl⟩
  session := nofun
  corrector := ⟨Nat.le_refl _, fun _ => rfl, nofun, nofun⟩

theorem exec_inv (h : s.Inv) (hx : exec i s = .next t) : t.Inv := by
  obtain ⟨-, -, rfl⟩ | ⟨-, r, hr, rfl⟩ | ⟨-, hg, hp, rfl⟩ := exec_cases hx
  · exact h
  · exact h.raise hr _
  · exact h.after_operation hg hp

theorem runWord_inv {w : Word} (h : s.Inv) (hx : runWord w s = .next t) : t.Inv := by
  obtain ⟨i, -, hx⟩ | ⟨-, rfl⟩ | ⟨-, rfl⟩ := runWord_cases hx
  · exact exec_inv h hx
  · exact h
  · exact h.raise (by simp) w

theorem step_inv (h : s.Inv) (hx : step s = .next t) : t.Inv := by
  obtain ⟨-, rfl⟩ | ⟨rest, -, rfl⟩ | ⟨w, rest, -, hx⟩ := step_cases hx
  · exact h
  · exact State.resetNow_inv _
  · exact runWord_inv (h.with_port rest) hx

end Sys2Proof.Machine
end

section
/-! What every step of the block keeps: the invariant, the fault record, and the fields and memories each command may
change. -/

namespace Sys2Proof.Machine

variable {s t : State} {i : Instr}

/-- Settles O14: a step is the idle step, a reset, or one word, and a word is dropped, faults, or completes a command;
each keeps the invariant, a completed command part by part. -/
theorem everyStepKeepsTheBlockSound : Obligations.EveryStepKeepsTheBlockSound :=
  fun _ _ => step_inv

/-- Settles O15: the reset state is what a reset from itself leaves. -/
theorem resetIsSound : Obligations.ResetIsSound := State.resetNow_inv State.reset

/-! The fault record (R34, R292, R293). -/

theorem imm24Field_of_formatN_eq_ok {w : Word} {j : Instr} (h : formatN w j = .ok i) : imm24Field w = 0 := by
  unfold formatN at h
  split at h
  next h0 => exact h0
  next => nomatch h

/-- The fifth row of the decoder is `SRESET`'s, and no other row answers it (R86). -/
theorem fields_of_decode_sreset {w : Word} (h : decode w = .ok .sreset) : opField w = 4 ∧ imm24Field w = 0 := by
  unfold decode at h
  split at h
  case h_5 hop => exact ⟨hop, imm24Field_of_formatN_eq_ok h⟩
  all_goals
    simp [formatN, formatR, formatRI, formatI, formatAB, ite_eq_iff] at h

/-- The only word of `SRESET` (R84, R86). -/
theorem eq_of_decode_sreset {w : Word} (h : decode w = .ok .sreset) : w = 0x04000000#32 := by
  obtain ⟨hop, himm⟩ := fields_of_decode_sreset h
  unfold opField slice at hop
  unfold imm24Field slice at himm
  have := w.isLt
  apply BitVec.eq_of_toNat_eq
  simp only [BitVec.toNat_ofNat]
  omega

theorem exec_faulted (h : exec i s = .next t) (hf : s.faulted = true) :
    (t.faulted = true ∧ t.err = s.err ∧ t.errInfo = s.errInfo ∧ t.errCmd = s.errCmd) ∨
    (i = .sreset ∧ t = s.resetNow) := by
  obtain ⟨-, -, rfl⟩ | ⟨hf', -⟩ | ⟨-, -, -, rfl⟩ := exec_cases h
  · exact .inl ⟨hf, rfl, rfl, rfl⟩
  · rw [hf] at hf'; nomatch hf'
  · by_cases hi : i = .sreset
    · exact .inr ⟨hi, by rw [hi]; rfl⟩
    · have hrecord := operation_faultRecord s hi
      rw [hf] at hrecord
      exact .inl hrecord

/-- A word of a faulted block leaves the record or is the one word of `SRESET`. -/
theorem runWord_faulted {w : Word} (h : runWord w s = .next t) (hf : s.faulted = true) :
    (t.faulted = true ∧ t.err = s.err ∧ t.errInfo = s.errInfo ∧ t.errCmd = s.errCmd) ∨
    (w = 0x04000000#32 ∧ t = s.resetNow) := by
  obtain ⟨i, hi, hx⟩ | ⟨-, rfl⟩ | ⟨hf', -⟩ := runWord_cases h
  · refine (exec_faulted hx hf).imp_right fun ⟨hsreset, ht⟩ => ⟨?_, ht⟩
    subst hsreset
    exact eq_of_decode_sreset hi
  · exact .inl ⟨hf, rfl, rfl, rfl⟩
  · rw [hf] at hf'; nomatch hf'

/-- Settles O13: a step of a faulted block is the idle step, a reset, or a word that leaves the record or is `SRESET`. -/
theorem firstFaultStaysUntilReset : Obligations.FirstFaultStaysUntilReset := by
  intro s t hf h
  obtain ⟨-, rfl⟩ | ⟨rest, hp, rfl⟩ | ⟨w, rest, hp, hx⟩ := step_cases h
  · exact .inl ⟨hf, rfl, rfl, rfl⟩
  · exact .inr ⟨⟨rest, .inl hp⟩, rfl, rfl, rfl, rfl⟩
  · obtain hkept | ⟨rfl, rfl⟩ := runWord_faulted hx hf
    · exact .inl hkept
    · exact .inr ⟨⟨rest, .inr hp⟩, rfl, rfl, rfl, rfl⟩

/-! Which completed commands write which field. -/

theorem writers_of_cfg (h : (operation i s).cfg ≠ s.cfg) : (∃ r v, i = .wrcfg r v) ∨ i = .sreset := by
  cases i with
  | wrcfg | sreset => simp
  | _ => exact absurd rfl h

theorem writers_of_snapshot (h : (operation i s).snap ≠ s.snap ∨ (operation i s).geom ≠ s.geom) :
    i = .begin_ ∨ i = .sreset := by
  cases i with
  | begin_ | sreset => simp
  | _ => exact h.elim (absurd rfl) (absurd rfl)

theorem writers_of_session (h : (operation i s).session ≠ s.session) :
    (i = .begin_ ∧ (operation i s).session = true) ∨ (i = .sreset ∧ (operation i s).session = false) := by
  cases i with
  | begin_ => exact .inl ⟨rfl, rfl⟩
  | sreset => exact .inr ⟨rfl, rfl⟩
  | _ => exact absurd rfl h

theorem writers_of_gridValid (h : (operation i s).gridValid ≠ s.gridValid) :
    (i = .gridInit ∧ (operation i s).gridValid = true) ∨
      ((i = .begin_ ∨ i = .sreset) ∧ (operation i s).gridValid = false) := by
  cases i with
  | gridInit => exact .inl ⟨rfl, rfl⟩
  | begin_ | sreset => exact .inr ⟨by simp, rfl⟩
  | _ => exact absurd rfl h

theorem writers_of_pbValid (h : (operation i s).pbValid ≠ s.pbValid) :
    ((i = .pbClr ∨ i = .pbFill ∨ (∃ c v, i = .patLd c v) ∨ i = .patStart ∨ i = .patStop ∨ (∃ r, i = .renderRow r) ∨
        i = .render) ∧ (operation i s).pbValid = true) ∨
      ((i = .begin_ ∨ i = .sreset) ∧ (operation i s).pbValid = false) := by
  cases i with
  | pbClr | pbFill | patLd | patStart | patStop | renderRow | render => exact .inl ⟨by simp, rfl⟩
  | begin_ | sreset => exact .inr ⟨by simp, rfl⟩
  | _ => exact absurd rfl h

theorem writers_of_eccPhase (h : (operation i s).eccPhase ≠ s.eccPhase) :
    i = .begin_ ∨ i = .sreset ∨ i = .eccStart ∨ i = .eccFin ∨ i = .eccChk := by
  cases i with
  | begin_ | sreset | eccStart | eccFin | eccChk => simp
  | _ => exact absurd rfl h

theorem writers_of_eccCount (h : (operation i s).eccCount ≠ s.eccCount) :
    i = .begin_ ∨ i = .sreset ∨ i = .eccStart ∨ (∃ c, i = .eccPush c) ∨ i = .eccRun := by
  cases i with
  | begin_ | sreset | eccStart | eccPush | eccRun => simp
  | _ => exact absurd rfl h

theorem writers_of_faulted (h : (operation i s).faulted ≠ s.faulted) :
    i = .sreset ∧ (operation i s).faulted = false := by
  by_cases hi : i = .sreset
  · exact ⟨hi, by rw [hi]; rfl⟩
  · exact absurd (operation_faultRecord s hi).1 h

theorem writers_of_errRecord (h : (operation i s).err ≠ s.err ∨ (operation i s).errInfo ≠ s.errInfo ∨
    (operation i s).errCmd ≠ s.errCmd) : i = .sreset := by
  by_contra hi
  obtain ⟨-, he, hinfo, hcmd⟩ := operation_faultRecord s hi
  exact h.elim (· he) (·.elim (· hinfo) (· hcmd))

/-- Settles O18: a dropped command changes nothing, a faulting one the fault record, and a completed one what its
operation writes. -/
theorem registersChangeOnlyByTheirCommands : Obligations.RegistersChangeOnlyByTheirCommands := by
  intro i s t h
  obtain ⟨-, -, rfl⟩ | ⟨hf, r, hr, rfl⟩ | ⟨-, -, -, rfl⟩ := exec_cases h
  · simp
  · simp [hf, hr]
  · exact ⟨writers_of_cfg, writers_of_snapshot, writers_of_session, writers_of_gridValid, writers_of_pbValid,
      writers_of_eccPhase, writers_of_eccCount, fun hne => .inr (writers_of_faulted hne),
      fun hne => .inr (writers_of_errRecord hne), operation_inst i s, operation_port i s⟩

/-- Settles O17: only a completed command moves `ECC_PHASE`, and its tests name the phase it leaves. -/
theorem eccPhaseTransitionsAreTheOnlyOnes : Obligations.EccPhaseTransitionsAreTheOnlyOnes := by
  intro i s t h hne
  obtain ⟨-, -, rfl⟩ | ⟨-, r, -, rfl⟩ | ⟨-, -, hp, rfl⟩ := exec_cases h
  · exact absurd rfl hne
  · exact absurd rfl hne
  obtain rfl | rfl | rfl | rfl | rfl := writers_of_eccPhase hne
  · exact .inl ⟨rfl, rfl⟩
  · exact .inr (.inr (.inr (.inr ⟨rfl, rfl⟩)))
  · exact .inr (.inl ⟨rfl, rfl⟩)
  · obtain ⟨hphase, hcount⟩ := hp
    exact .inr (.inr (.inl ⟨rfl, hphase, hcount, rfl⟩))
  · obtain ⟨hphase, -⟩ := hp
    exact .inr (.inr (.inr (.inl ⟨rfl, hphase, rfl⟩)))

/-! Which completed commands write which memory. -/

theorem writers_of_acc {j : Nat} (h : (operation i s).accAt j ≠ s.accAt j) (hi : i ≠ .sreset) :
    i = .eccStart ∨ (∃ c, i = .eccPush c) ∨ i = .eccRun ∨ i = .eccFin ∨ i = .eccChk := by
  cases i with
  | eccStart | eccPush | eccRun | eccFin | eccChk => simp
  | sreset => exact absurd rfl hi
  | _ => exact absurd rfl h

theorem writers_of_cw {j : Nat} (h : (operation i s).cwAt j ≠ s.cwAt j) (hi : i ≠ .sreset) :
    (∃ x c, i = .cwWr x c) ∨ (∃ c, i = .eccPush c) ∨ i = .eccFin := by
  cases i with
  | cwWr | eccPush | eccFin => simp
  | sreset => exact absurd rfl hi
  | _ => exact absurd rfl h

theorem writers_of_cwv {j : Nat} (h : (operation i s).cwValid j ≠ s.cwValid j) (hi : i ≠ .sreset) :
    i = .begin_ ∨ (∃ x c, i = .cwWr x c) ∨ (∃ c, i = .eccPush c) ∨ i = .eccFin := by
  cases i with
  | begin_ | cwWr | eccPush | eccFin => simp
  | sreset => exact absurd rfl hi
  | _ => exact absurd rfl h

theorem writers_of_pb (h : (operation i s).pb ≠ s.pb) (hi : i ≠ .sreset) :
    i = .pbClr ∨ i = .pbFill ∨ (∃ b, i = .pbSetb b) ∨ (∃ b, i = .pbClrb b) ∨ (∃ m, i = .pbAndi m) ∨
      (∃ c v, i = .patLd c v) ∨ i = .patStart ∨ i = .patStop ∨ (∃ r, i = .renderRow r) ∨ i = .render := by
  cases i with
  | pbClr | pbFill | pbSetb | pbClrb | pbAndi | patLd | patStart | patStop | renderRow | render => simp
  | sreset => exact absurd rfl hi
  | _ => exact absurd rfl h

theorem writers_of_fb {j : Nat} (h : fbBit (operation i s).fb j ≠ fbBit s.fb j) (hi : i ≠ .sreset) :
    i = .fbClr ∨ i = .fbFill ∨ (∃ b, i = .fbSetb b) ∨ (∃ b, i = .fbClrb b) ∨ i = .gridInit ∨
      (∃ x y, i = .pxSet x y) ∨ (∃ x y, i = .pxClr x y) ∨ (∃ r m, i = .drawBar r m) ∨ (∃ r m, i = .drawSpc r m) ∨
      (∃ r m, i = .drawPb r m) ∨ (∃ r, i = .renderRow r) ∨ i = .render := by
  cases i with
  | fbClr | fbFill | fbSetb | fbClrb | gridInit | pxSet | pxClr | drawBar | drawSpc | drawPb | renderRow | render => simp
  | sreset => exact absurd rfl hi
  | _ => exact absurd rfl h

/-- Settles O19: a dropped or faulting command leaves every memory, and a completed one changes what its operation
writes. -/
theorem memoriesChangeOnlyByTheirCommands : Obligations.MemoriesChangeOnlyByTheirCommands := by
  intro i s t h hi
  obtain ⟨-, -, rfl⟩ | ⟨-, r, -, rfl⟩ | ⟨-, -, -, rfl⟩ := exec_cases h
  · simp
  · simp [State.accAt, State.cwAt, State.cwValid]
  · exact ⟨fun ⟨_, hne⟩ => writers_of_acc hne hi, fun ⟨_, hne⟩ => writers_of_cw hne hi,
      fun ⟨_, hne⟩ => writers_of_cwv hne hi, fun hne => writers_of_pb hne hi, fun ⟨_, hne⟩ => writers_of_fb hne hi⟩

/-! Responses (R40). -/

/-- Settles O20: a dropped or faulting command appends nothing, and a completed one appends one word exactly when it is a
responding command. -/
theorem oneResponsePerRespondingCommand : Obligations.OneResponsePerRespondingCommand := by
  intro i s t h
  obtain ⟨hf, hg, rfl⟩ | ⟨hf, r, -, rfl⟩ | ⟨hrun, -, -, rfl⟩ := exec_cases h
  · have hdrop : Claims.runsWhileFaulted i ≠ true := fun hr => hg (gateOf_eq_always_iff.2 hr)
    exact ⟨fun _ => rfl, fun _ => rfl, fun _ _ => rfl, fun _ hrun _ => absurd hrun (by simp [hf, hdrop])⟩
  · exact ⟨fun _ => rfl, fun _ => rfl, fun _ _ => rfl, fun _ _ hkept => by simp [hf] at hkept⟩
  · refine ⟨operation_rsp_of_not_responds s, fun hne => ?_, fun hf hr => ?_, fun hr _ _ =>
      operation_rsp_of_responds s hr⟩
    · rw [(writers_of_faulted hne).1]
      exact operation_rsp_of_not_responds s rfl
    · rw [hf, gateOf_eq_always_iff, hr] at hrun
      simp at hrun

/-! The registers a host reads (R32, R42, R304). -/

/-- Settles O16: the reset table, register by register. -/
theorem resetValuesAreTheTable : Obligations.ResetValuesAreTheTable := by
  refine ⟨rfl, rfl, rfl, rfl, rfl, rfl, rfl, fun r hlo hhi => ?_, rfl, rfl, rfl, rfl, rfl, rfl, fun _ => rfl⟩
  interval_cases r <;> rfl

/-- Flags and a two-bit phase summed at distinct powers of two are the bits of the sum. -/
theorem flagSum_bits : ∀ (session gridValid pbValid faulted : Bool) (phase : Fin 4),
    let w := BitVec.ofNat 32 (session.toNat + phase.val * 2 + gridValid.toNat * 8 + pbValid.toNat * 16 +
      faulted.toNat * 32)
    w.getLsbD 0 = session ∧ w.extractLsb' 1 2 = BitVec.ofNat 2 phase.val ∧ w.getLsbD 3 = gridValid ∧
      w.getLsbD 4 = pbValid ∧ w.getLsbD 5 = faulted ∧ w.toNat < 2 ^ 6 := by decide

/-- Settles O25: `STATUS` is a sum of the flags at distinct powers of two below 64. -/
theorem statusBitsAreTheFlags : Obligations.StatusBitsAreTheFlags := by
  intro s
  have hcode : s.eccPhase.code < 4 := by cases s.eccPhase <;> decide
  obtain ⟨h0, h1, h3, h4, h5, hlt⟩ :=
    flagSum_bits s.session s.gridValid s.pbValid s.faulted ⟨s.eccPhase.code, hcode⟩
  refine ⟨h0, h1.trans ?_, h3, h4, h5, rfl, fun b hb => ?_⟩
  · show BitVec.ofNat 2 s.eccPhase.code = _
    cases s.eccPhase <;> rfl
  · exact Nat.testBit_lt_two_pow (Nat.lt_of_lt_of_le hlt (Nat.pow_le_pow_right (by decide) hb))

end Sys2Proof.Machine
end

section
/-! A presented word runs the command it decodes to (R72, R84), and the bits of the frame memory's storage words (R62). -/

namespace Sys2Proof.Machine

/-! The step. -/

/-- A presented word is the port's next input, and the step runs it once the port has accepted it (R72). -/
theorem step_present (s : State) (w : Word) : step (s.present w) = runWord w s := rfl

theorem runWord_of_decode {w : Word} {i : Instr} (h : decode w = .ok i) (s : State) : runWord w s = exec i s := by
  unfold runWord
  rw [h]

/-- Settles O6: the step runs the presented word, and running a word that decodes is `exec` of its command. -/
theorem stepRunsTheDecodedCommand : Obligations.StepRunsTheDecodedCommand :=
  fun s w _ h => (step_present s w).trans (runWord_of_decode h s)

/-! Storage words. -/

/-- Bit `j` of storage word `w` is bit `32 * w + j` of the frame memory: one case per byte lane. -/
theorem getLsbD_fbWord (fb : Memory Byte) (w : Nat) {j : Nat} (hj : j < 32) :
    (fbWord fb w).getLsbD j = fbBit fb (32 * w + j) := by
  have hcell (l : Nat) (hlo : 8 * l ≤ j) (hhi : j < 8 * l + 8) :
      fbBit fb (32 * w + j) = (fb.read 0#8 (4 * w + l)).getLsbD (j - 8 * l) := by
    unfold fbBit
    rw [show (32 * w + j) / 8 = 4 * w + l by omega, show (32 * w + j) % 8 = j - 8 * l by omega]
  unfold fbWord
  simp only [BitVec.getLsbD_append]
  by_cases h0 : j < 8
  · rw [if_pos h0, hcell 0 (by omega) h0]; rfl
  rw [if_neg h0]
  by_cases h1 : j < 16
  · rw [if_pos (by omega), hcell 1 (by omega) h1]
  rw [if_neg (by omega)]
  by_cases h2 : j < 24
  · rw [if_pos (by omega), hcell 2 (by omega) h2, Nat.sub_sub]
  · rw [if_neg (by omega), hcell 3 (by omega) hj, Nat.sub_sub, Nat.sub_sub]

theorem fbBit_eq_getLsbD_fbWord (fb : Memory Byte) (i : Nat) : fbBit fb i = (fbWord fb (i / 32)).getLsbD (i % 32) := by
  rw [getLsbD_fbWord fb _ (Nat.mod_lt i (by decide)), Nat.div_add_mod]

/-- A bit write is `putBit` on its own storage word and leaves every other word (R62). -/
theorem fbWord_fbSetBit (fb : Memory Byte) (i w : Nat) (b : Bool) :
    fbWord (fbSetBit fb i b) w = if w = i / 32 then putBit (fbWord fb w) (i % 32) b else fbWord fb w := by
  refine BitVec.eq_of_getLsbD_eq fun j hj => ?_
  rw [getLsbD_fbWord _ _ hj, fbBit_fbSetBit, ← getLsbD_fbWord _ _ hj]
  by_cases hw : w = i / 32
  · have hbit : 32 * w + j = i ↔ j = i % 32 := by omega
    rw [if_pos hw, getLsbD_putBit _ _ (Nat.mod_lt i (by decide))]
    simp only [hbit]
  · have hbit : 32 * w + j ≠ i := by omega
    rw [if_neg hw, if_neg hbit]

/-- Settles O40: the bits of a storage word are the frame memory's, so a bit write is R62's update of one word. -/
theorem bitPlacementInStorageWords : Obligations.BitPlacementInStorageWords :=
  fun fb i w b => ⟨fbBit_eq_getLsbD_fbWord fb i, fbWord_fbSetBit fb i w b⟩

end Sys2Proof.Machine
end

section
/-! SUPPORT. The words of the formats (R81): an encoded word gives its fields back, and a word is the encoding of its
fields. -/

namespace Sys2Proof

variable {op a b n : Nat} {w : Word}

theorem opField_wordI (ho : op < 2 ^ 8) (hn : n < 2 ^ 24) : opField (wordI op n) = op := by
  simp only [opField, slice, wordI, BitVec.toNat_ofNat]; omega

theorem imm24Field_wordI (hn : n < 2 ^ 24) : imm24Field (wordI op n) = n := by
  simp only [imm24Field, slice, wordI, BitVec.toNat_ofNat]; omega

theorem opField_wordRI (ho : op < 2 ^ 8) (ha : a < 2 ^ 8) (hb : b < 2 ^ 16) : opField (wordRI op a b) = op := by
  simp only [opField, slice, wordRI, BitVec.toNat_ofNat]; omega

theorem regField_wordRI (ha : a < 2 ^ 8) (hb : b < 2 ^ 16) : regField (wordRI op a b) = a := by
  simp only [regField, slice, wordRI, BitVec.toNat_ofNat]; omega

theorem imm16Field_wordRI (hb : b < 2 ^ 16) : imm16Field (wordRI op a b) = b := by
  simp only [imm16Field, slice, wordRI, BitVec.toNat_ofNat]; omega

theorem opField_wordAB (ho : op < 2 ^ 8) (ha : a < 2 ^ 12) (hb : b < 2 ^ 12) : opField (wordAB op a b) = op := by
  simp only [opField, slice, wordAB, BitVec.toNat_ofNat]; omega

theorem aField_wordAB (ha : a < 2 ^ 12) (hb : b < 2 ^ 12) : aField (wordAB op a b) = a := by
  simp only [aField, slice, wordAB, BitVec.toNat_ofNat]; omega

theorem bField_wordAB (hb : b < 2 ^ 12) : bField (wordAB op a b) = b := by
  simp only [bField, slice, wordAB, BitVec.toNat_ofNat]; omega

theorem slice_lt (w : Word) (hi lo : Nat) : slice w hi lo < 2 ^ (hi + 1 - lo) := Nat.mod_lt _ (Nat.two_pow_pos _)

theorem toNat_eq_opField_imm24Field (w : Word) : w.toNat = opField w * 2 ^ 24 + imm24Field w := by
  have := w.isLt
  simp only [opField, imm24Field, slice]; omega

theorem opField_eq_div (w : Word) : opField w = w.toNat / 2 ^ 24 :=
  Nat.mod_eq_of_lt (Nat.div_lt_of_lt_mul w.isLt)

theorem imm24Field_eq_mod (w : Word) : imm24Field w = w.toNat % 2 ^ 24 := by
  rw [imm24Field, slice, Nat.pow_zero, Nat.div_one]

theorem imm16Field_eq_mod (w : Word) : imm16Field w = w.toNat % 2 ^ 16 := by
  rw [imm16Field, slice, Nat.pow_zero, Nat.div_one]

theorem wordI_fields (w : Word) : wordI (opField w) (imm24Field w) = w :=
  BitVec.eq_of_toNat_eq (by rw [wordI, ← toNat_eq_opField_imm24Field, BitVec.ofNat_toNat, BitVec.setWidth_eq])

theorem imm24Field_eq_reg_imm16 (w : Word) : imm24Field w = regField w * 2 ^ 16 + imm16Field w := by
  simp only [imm24Field, regField, imm16Field, slice]; omega

theorem imm24Field_eq_a_b (w : Word) : imm24Field w = aField w * 2 ^ 12 + bField w := by
  simp only [imm24Field, aField, bField, slice]; omega

theorem wordRI_fields (w : Word) : wordRI (opField w) (regField w) (imm16Field w) = w := by
  rw [wordRI, Nat.add_assoc, ← imm24Field_eq_reg_imm16]; exact wordI_fields w

theorem wordAB_fields (w : Word) : wordAB (opField w) (aField w) (bField w) = w := by
  rw [wordAB, Nat.add_assoc, ← imm24Field_eq_a_b]; exact wordI_fields w

end Sys2Proof
end

section
/-! SUPPORT. The opcode map of R86 as a list of rows, each an opcode with the format its commands are read and written in.
The decoder, the encoder and the match and mask rows are each tied to this list once; what holds for a row of each of the
five formats then holds for every command. -/

namespace Sys2Proof

/-- How a row of R86 reads its operands (R81), with the commands it makes of them. -/
inductive RowFormat where
  | formN (i : Instr)
  | formR (f : Nat → Instr)
  | formRI (f : Nat → Nat → Instr)
  | formI (f : Nat → Instr)
  | formAB (f : Nat → Nat → Instr)

/-- An opcode and the format of its row. -/
structure EncodingRow where
  op : Nat
  format : RowFormat

open RowFormat in
/-- The rows of R86, in the table's order. -/
def encodingRows : List EncodingRow :=
  [⟨0x00, formN .nop⟩, ⟨0x01, formRI .wrcfg⟩, ⟨0x02, formR .rdreg⟩, ⟨0x03, formN .begin_⟩, ⟨0x04, formN .sreset⟩,
    ⟨0x10, formN .eccStart⟩, ⟨0x11, formI .eccPush⟩, ⟨0x12, formN .eccRun⟩, ⟨0x13, formN .eccFin⟩,
    ⟨0x14, formI .eccRdacc⟩, ⟨0x15, formN .eccChk⟩, ⟨0x20, formAB .cwWr⟩, ⟨0x21, formI .cwRd⟩, ⟨0x30, formN .pbClr⟩,
    ⟨0x31, formN .pbFill⟩, ⟨0x32, formI .pbGetb⟩, ⟨0x33, formI .pbSetb⟩, ⟨0x34, formI .pbClrb⟩, ⟨0x35, formI .pbAndi⟩,
    ⟨0x36, formI .pbByte⟩, ⟨0x40, formN .fbClr⟩, ⟨0x41, formN .fbFill⟩, ⟨0x42, formI .fbGetb⟩, ⟨0x43, formI .fbSetb⟩,
    ⟨0x44, formI .fbClrb⟩, ⟨0x46, formI .fbByte⟩, ⟨0x50, formN .gridInit⟩, ⟨0x51, formAB .pxSet⟩,
    ⟨0x52, formAB .pxClr⟩, ⟨0x53, formAB .pxGet⟩, ⟨0x54, formI .gridRawb⟩, ⟨0x60, formAB .patLd⟩,
    ⟨0x61, formN .patStart⟩, ⟨0x62, formN .patStop⟩, ⟨0x63, formI .indL⟩, ⟨0x64, formI .indR⟩,
    ⟨0x65, formAB .drawBar⟩, ⟨0x66, formAB .drawSpc⟩, ⟨0x67, formAB .drawPb⟩, ⟨0x68, formI .renderRow⟩,
    ⟨0x69, formN .render⟩]

/-- What the decoder answers on a word whose opcode has a row of this format. -/
def RowFormat.read (w : Word) : RowFormat → Except Reject Instr
  | .formN i => formatN w i
  | .formR f => formatR w f
  | .formRI f => formatRI w f
  | .formI f => formatI w f
  | .formAB f => formatAB w f

/-- A reserved bit of the format is set (R85). -/
def RowFormat.ReservedBitsSet (w : Word) : RowFormat → Prop
  | .formN _ => imm24Field w ≠ 0
  | .formR _ => imm16Field w ≠ 0
  | _ => False

/-- The command of a word, its operands taken from the format's fields (R82). -/
def RowFormat.command (w : Word) : RowFormat → Instr
  | .formN i => i
  | .formR f => f (regField w)
  | .formRI f => f (regField w) (imm16Field w)
  | .formI f => f (imm24Field w)
  | .formAB f => f (aField w) (bField w)

/-- The command belongs to a row of this format. -/
def RowFormat.Names (i : Instr) : RowFormat → Prop
  | .formN j => i = j
  | .formR f | .formI f => ∃ n, i = f n
  | .formRI f | .formAB f => ∃ a b, i = f a b

/-- The mnemonic of a format's commands, which does not depend on the operands. -/
def RowFormat.mnemonic : RowFormat → String
  | .formN i => i.mnemonic
  | .formR f | .formI f => (f 0).mnemonic
  | .formRI f | .formAB f => (f 0 0).mnemonic

/-- What the encoder says of the commands of a row: which operands fit, the word, and one mnemonic. -/
def EncodingRow.Encodes : EncodingRow → Prop
  | ⟨op, .formN i⟩ => i.wf = true ∧ encode i = wordI op 0
  | ⟨op, .formR f⟩ => ∀ a, ((f a).wf = true ↔ a < 2 ^ 8) ∧ encode (f a) = wordRI op a 0 ∧
      (f a).mnemonic = (f 0).mnemonic
  | ⟨op, .formRI f⟩ => ∀ a b, ((f a b).wf = true ↔ a < 2 ^ 8 ∧ b < 2 ^ 16) ∧ encode (f a b) = wordRI op a b ∧
      (f a b).mnemonic = (f 0 0).mnemonic
  | ⟨op, .formI f⟩ => ∀ n, ((f n).wf = true ↔ n < 2 ^ 24) ∧ encode (f n) = wordI op n ∧
      (f n).mnemonic = (f 0).mnemonic
  | ⟨op, .formAB f⟩ => ∀ a b, ((f a b).wf = true ↔ a < 2 ^ 12 ∧ b < 2 ^ 12) ∧ encode (f a b) = wordAB op a b ∧
      (f a b).mnemonic = (f 0 0).mnemonic

/-- The match and mask row of R87 for a row of R86. -/
def EncodingRow.opRow : EncodingRow → OpRow
  | ⟨op, .formN i⟩ => rowN i.mnemonic op
  | ⟨op, .formR f⟩ => Sys2Proof.opRow (f 0).mnemonic op 0xFF00FFFF
  | ⟨op, f⟩ => rowO f.mnemonic op

variable {w : Word} {i : Instr} {r : EncodingRow}

/-! The list against the model's tables. -/

theorem op_lt_of_mem (hr : r ∈ encodingRows) : r.op < 2 ^ 8 := by
  revert r
  decide

/-- The decoder's match, row by row. -/
theorem decode_of_row (hr : r ∈ encodingRows) (hop : opField w = r.op) : decode w = r.format.read w := by
  unfold decode
  rw [hop]
  fin_cases hr <;> rfl

/-- The decoder's last case. -/
theorem decode_of_no_row (h : opField w ∉ encodingRows.map EncodingRow.op) : decode w = .error .reservedOpcode := by
  unfold decode
  split
  case h_42 => rfl
  all_goals
    next hop =>
      rw [hop] at h
      exact absurd (by decide) h

theorem encodes_of_mem (hr : r ∈ encodingRows) : r.Encodes := by
  fin_cases hr <;> simp [EncodingRow.Encodes, Instr.wf, fitsReg, fitsImm16, fitsImm24, fitsImm12, encode, Instr.mnemonic]

/-- The rows stand in the order of the commands' constructors. -/
theorem exists_row (i : Instr) : ∃ r ∈ encodingRows, r.format.Names i := by
  have hlt : i.ctorIdx < encodingRows.length := by cases i <;> exact of_decide_eq_true rfl
  refine ⟨encodingRows[i.ctorIdx], List.getElem_mem hlt, ?_⟩
  cases i with
  | wrcfg a b | cwWr a b | pxSet a b | pxClr a b | pxGet a b | patLd a b | drawBar a b | drawSpc a b | drawPb a b =>
    exact ⟨a, b, rfl⟩
  | rdreg n | eccPush n | eccRdacc n | cwRd n | pbGetb n | pbSetb n | pbClrb n | pbAndi n | pbByte n | fbGetb n | fbSetb n
  | fbClrb n | fbByte n | gridRawb n | indL n | indR n | renderRow n => exact ⟨n, rfl⟩
  | _ => rfl

/-- R87's rows are the match and mask rows of R86's. -/
theorem opcodeRows_eq : opcodeRows = encodingRows.map EncodingRow.opRow := rfl

theorem mnemonics_nodup : (opcodeRows.map OpRow.mnemonic).Nodup := by decide

/-! What holds for a row, format by format. -/

theorem decode_eq_ok_iff : decode w = .ok i ↔ ∃ r ∈ encodingRows, opField w = r.op ∧ r.format.read w = .ok i := by
  constructor
  · intro h
    by_cases hop : opField w ∈ encodingRows.map EncodingRow.op
    · obtain ⟨r, hr, hop⟩ := List.mem_map.1 hop
      exact ⟨r, hr, hop.symm, decode_of_row hr hop.symm ▸ h⟩
    · rw [decode_of_no_row hop] at h
      nomatch h
  · rintro ⟨r, hr, hop, hread⟩
    rw [decode_of_row hr hop, hread]

theorem read_eq_ok_iff {f : RowFormat} : f.read w = .ok i ↔ ¬f.ReservedBitsSet w ∧ f.command w = i := by
  cases f <;> simp [RowFormat.read, RowFormat.ReservedBitsSet, RowFormat.command, formatN, formatR, formatRI, formatI,
    formatAB, ite_eq_iff]

theorem read_eq_error_iff {f : RowFormat} : (∃ e, f.read w = .error e) ↔ f.ReservedBitsSet w := by
  cases f with
  | formN i => by_cases h : imm24Field w = 0 <;> simp [RowFormat.read, RowFormat.ReservedBitsSet, formatN, h]
  | formR f => by_cases h : imm16Field w = 0 <;> simp [RowFormat.read, RowFormat.ReservedBitsSet, formatR, h]
  | _ => simp [RowFormat.read, RowFormat.ReservedBitsSet, formatRI, formatI, formatAB]

/-- A well-formed command's own word has its row's opcode, and reads as the command. -/
theorem EncodingRow.Encodes.read_encode (he : r.Encodes) (hop : r.op < 2 ^ 8) (hn : r.format.Names i)
    (hwf : i.wf = true) : opField (encode i) = r.op ∧ r.format.read (encode i) = .ok i := by
  obtain ⟨op, f⟩ := r
  cases f with
  | formN j =>
    obtain ⟨-, henc⟩ := he
    obtain rfl : i = j := hn
    simp [RowFormat.read, formatN, henc, opField_wordI hop, imm24Field_wordI]
  | formR f =>
    obtain ⟨a, rfl⟩ := hn
    obtain ⟨hfit, henc, -⟩ := he a
    have ha := hfit.1 hwf
    simp [RowFormat.read, formatR, henc, opField_wordRI hop ha, regField_wordRI ha, imm16Field_wordRI]
  | formRI f =>
    obtain ⟨a, b, rfl⟩ := hn
    obtain ⟨hfit, henc, -⟩ := he a b
    obtain ⟨ha, hb⟩ := hfit.1 hwf
    simp [RowFormat.read, formatRI, henc, opField_wordRI hop ha hb, regField_wordRI ha hb, imm16Field_wordRI hb]
  | formI f =>
    obtain ⟨n, rfl⟩ := hn
    obtain ⟨hfit, henc, -⟩ := he n
    have hlt := hfit.1 hwf
    simp [RowFormat.read, formatI, henc, opField_wordI hop hlt, imm24Field_wordI hlt]
  | formAB f =>
    obtain ⟨a, b, rfl⟩ := hn
    obtain ⟨hfit, henc, -⟩ := he a b
    obtain ⟨ha, hb⟩ := hfit.1 hwf
    simp [RowFormat.read, formatAB, henc, opField_wordAB hop ha hb, aField_wordAB ha hb, bField_wordAB hb]

/-- What a word of a row reads as is well-formed, has the row's mnemonic, and the word is its encoding. -/
theorem EncodingRow.Encodes.of_read (he : r.Encodes) (hop : opField w = r.op) (h : r.format.read w = .ok i) :
    i.wf = true ∧ encode i = w ∧ i.mnemonic = r.format.mnemonic := by
  obtain ⟨hclear, rfl⟩ := read_eq_ok_iff.1 h
  obtain ⟨op, f⟩ := r
  obtain rfl : opField w = op := hop
  cases f with
  | formN j =>
    obtain ⟨hwf, henc⟩ := he
    have h0 : imm24Field w = 0 := not_not.1 hclear
    exact ⟨hwf, by rw [RowFormat.command, henc, ← h0, wordI_fields], rfl⟩
  | formR f =>
    obtain ⟨hfit, henc, hmn⟩ := he (regField w)
    have h0 : imm16Field w = 0 := not_not.1 hclear
    exact ⟨hfit.2 (slice_lt w 23 16), by rw [RowFormat.command, henc, ← h0, wordRI_fields], hmn⟩
  | formRI f =>
    obtain ⟨hfit, henc, hmn⟩ := he (regField w) (imm16Field w)
    exact ⟨hfit.2 ⟨slice_lt w 23 16, slice_lt w 15 0⟩, henc.trans (wordRI_fields w), hmn⟩
  | formI f =>
    obtain ⟨hfit, henc, hmn⟩ := he (imm24Field w)
    exact ⟨hfit.2 (slice_lt w 23 0), henc.trans (wordI_fields w), hmn⟩
  | formAB f =>
    obtain ⟨hfit, henc, hmn⟩ := he (aField w) (bField w)
    exact ⟨hfit.2 ⟨slice_lt w 23 12, slice_lt w 11 0⟩, henc.trans (wordAB_fields w), hmn⟩

/-! Match and mask (R87). -/

theorem and_opMask_eq_iff {op : Nat} (h : op < 2 ^ 8) :
    w &&& BitVec.ofNat 32 0xFF000000 = BitVec.ofNat 32 (op * 2 ^ 24) ↔ opField w = op := by
  rw [← BitVec.toNat_inj, Laws.and_opMask, BitVec.toNat_ofNat, opField_eq_div]
  omega

theorem and_rdregMask_eq_iff {op : Nat} (h : op < 2 ^ 8) :
    w &&& BitVec.ofNat 32 0xFF00FFFF = BitVec.ofNat 32 (op * 2 ^ 24) ↔ opField w = op ∧ imm16Field w = 0 := by
  rw [← BitVec.toNat_inj, Laws.and_rdregMask, BitVec.toNat_ofNat, opField_eq_div, imm16Field, slice]
  omega

theorem and_allOnes_eq_iff {op : Nat} (h : op < 2 ^ 8) :
    w &&& BitVec.ofNat 32 0xFFFFFFFF = BitVec.ofNat 32 (op * 2 ^ 24) ↔ opField w = op ∧ imm24Field w = 0 := by
  have hall : BitVec.ofNat 32 0xFFFFFFFF = BitVec.allOnes 32 := rfl
  have := w.isLt
  rw [hall, BitVec.and_allOnes, ← BitVec.toNat_inj, BitVec.toNat_ofNat, opField_eq_div, imm24Field, slice]
  omega

/-- A word matches a row exactly when its opcode is the row's and no reserved bit of the format is set. -/
theorem matches_iff (hop : r.op < 2 ^ 8) :
    w &&& r.opRow.mask = r.opRow.value ↔ opField w = r.op ∧ ¬r.format.ReservedBitsSet w := by
  obtain ⟨op, f⟩ := r
  cases f with
  | formN i => exact (and_allOnes_eq_iff hop).trans (by simp [RowFormat.ReservedBitsSet])
  | formR f => exact (and_rdregMask_eq_iff hop).trans (by simp [RowFormat.ReservedBitsSet])
  | _ => exact (and_opMask_eq_iff hop).trans (by simp [RowFormat.ReservedBitsSet])

theorem opRow_mnemonic (r : EncodingRow) : r.opRow.mnemonic = r.format.mnemonic := by
  obtain ⟨op, f⟩ := r
  cases f <;> rfl

theorem eq_of_mnemonic_eq {q q' : OpRow} (hq : q ∈ opcodeRows) (hq' : q' ∈ opcodeRows) (h : q.mnemonic = q'.mnemonic) :
    q = q' := List.inj_on_of_nodup_map mnemonics_nodup hq hq' h

theorem exists_matching_row (h : decode w = .ok i) :
    ∃ q ∈ opcodeRows, w &&& q.mask = q.value ∧ q.mnemonic = i.mnemonic := by
  obtain ⟨r, hr, hop, hread⟩ := decode_eq_ok_iff.1 h
  obtain ⟨-, -, hmn⟩ := (encodes_of_mem hr).of_read hop hread
  obtain ⟨hclear, -⟩ := read_eq_ok_iff.1 hread
  exact ⟨r.opRow, opcodeRows_eq ▸ List.mem_map_of_mem hr, (matches_iff (op_lt_of_mem hr)).2 ⟨hop, hclear⟩,
    (opRow_mnemonic r).trans hmn.symm⟩

theorem matches_row_iff {q : OpRow} (hq : q ∈ opcodeRows) :
    w &&& q.mask = q.value ↔ ∃ i, decode w = .ok i ∧ i.mnemonic = q.mnemonic := by
  constructor
  · intro h
    rw [opcodeRows_eq] at hq
    obtain ⟨r, hr, rfl⟩ := List.mem_map.1 hq
    obtain ⟨hop, hclear⟩ := (matches_iff (op_lt_of_mem hr)).1 h
    have hread : r.format.read w = .ok (r.format.command w) := read_eq_ok_iff.2 ⟨hclear, rfl⟩
    obtain ⟨-, -, hmn⟩ := (encodes_of_mem hr).of_read hop hread
    exact ⟨_, decode_eq_ok_iff.2 ⟨r, hr, hop, hread⟩, hmn.trans (opRow_mnemonic r).symm⟩
  · rintro ⟨i, hd, hmn⟩
    obtain ⟨q', hq', hmatch, hmn'⟩ := exists_matching_row hd
    obtain rfl := eq_of_mnemonic_eq hq' hq (hmn'.trans hmn)
    exact hmatch

theorem mnemonic_of_names (he : r.Encodes) (hn : r.format.Names i) : i.mnemonic = r.format.mnemonic := by
  obtain ⟨op, f⟩ := r
  cases f with
  | formN j => exact congrArg _ hn
  | formR f | formI f => obtain ⟨n, rfl⟩ := hn; exact (he n).2.2
  | formRI f | formAB f => obtain ⟨a, b, rfl⟩ := hn; exact (he a b).2.2

/-! Reserved encodings (R85). -/

/-- The opcode bytes of no row of R86, as R85 lists them. -/
def ReservedOpcode (op : Nat) : Prop :=
  (0x05 ≤ op ∧ op ≤ 0x0F) ∨ (0x16 ≤ op ∧ op ≤ 0x1F) ∨ (0x22 ≤ op ∧ op ≤ 0x2F) ∨ (0x37 ≤ op ∧ op ≤ 0x3F) ∨ op = 0x45 ∨
    (0x47 ≤ op ∧ op ≤ 0x4F) ∨ (0x55 ≤ op ∧ op ≤ 0x5F) ∨ (0x6A ≤ op ∧ op ≤ 0xFF)

theorem reservedOpcode_iff {op : Nat} (h : op < 2 ^ 8) :
    ReservedOpcode op ↔ op ∉ encodingRows.map EncodingRow.op := by
  simp only [ReservedOpcode, encodingRows, List.map_cons, List.map_nil, List.mem_cons, List.not_mem_nil, or_false]
  omega

/-- The opcodes of format N, as R85 lists them. -/
def formatNOpcodes : List Nat :=
  [0x00, 0x03, 0x04, 0x10, 0x12, 0x13, 0x15, 0x30, 0x31, 0x40, 0x41, 0x50, 0x61, 0x62, 0x69]

/-- Only format N and `RDREG` have reserved bits. -/
theorem reservedBitsSet_iff (hr : r ∈ encodingRows) :
    r.format.ReservedBitsSet w ↔ r.op ∈ formatNOpcodes ∧ imm24Field w ≠ 0 ∨ r.op = 0x02 ∧ imm16Field w ≠ 0 := by
  fin_cases hr <;> simp [RowFormat.ReservedBitsSet, formatNOpcodes]

theorem formatNOpcodes_subset : 0x02 :: formatNOpcodes ⊆ encodingRows.map EncodingRow.op := by decide

theorem decode_eq_error_iff : (∃ e, decode w = .error e) ↔
    ReservedOpcode (opField w) ∨ opField w ∈ formatNOpcodes ∧ imm24Field w ≠ 0 ∨
      opField w = 0x02 ∧ imm16Field w ≠ 0 := by
  rw [reservedOpcode_iff (op := opField w) (slice_lt w 31 24)]
  by_cases hop : opField w ∈ encodingRows.map EncodingRow.op
  · obtain ⟨r, hr, hr_op⟩ := List.mem_map.1 hop
    rw [decode_of_row hr hr_op.symm, read_eq_error_iff, reservedBitsSet_iff hr, hr_op]
    simp [hop]
  · simp [decode_of_no_row hop, hop]

end Sys2Proof
end

section
/-! The decoder and the encoder agree, the match and mask rows are the decoder, and the words that are no command are
R85's and raise `ILLEGAL_COMMAND` (R81 to R88, R105). -/

namespace Sys2Proof

/-- Settles O1: the command has a row, its word has the row's opcode, and the row's format reads the operands back. -/
theorem decodeOfEncodeIsTheCommand : Obligations.DecodeOfEncodeIsTheCommand := by
  intro i hwf
  obtain ⟨r, hr, hn⟩ := exists_row i
  exact decode_eq_ok_iff.2 ⟨r, hr, (encodes_of_mem hr).read_encode (op_lt_of_mem hr) hn hwf⟩

/-- Settles O2: the word has a row, and the row's format splits it into the opcode and the fields it was put together
from. -/
theorem encodeOfDecodeIsTheWord : Obligations.EncodeOfDecodeIsTheWord := by
  intro w i h
  obtain ⟨r, hr, hop, hread⟩ := decode_eq_ok_iff.1 h
  obtain ⟨hwf, henc, -⟩ := (encodes_of_mem hr).of_read hop hread
  exact ⟨hwf, henc⟩

/-- Settles O3: a word matches a row exactly when it decodes to a command of the row's mnemonic; the decoder is a function
and the mnemonics are distinct, so no word matches two rows. -/
theorem matchAndMaskRowsAreTheDecoder : Obligations.MatchAndMaskRowsAreTheDecoder := by
  refine ⟨fun w q hq => matches_row_iff hq, fun w q q' hq hq' h h' => ?_, fun i => ?_⟩
  · obtain ⟨i, hd, hmn⟩ := (matches_row_iff hq).1 h
    obtain ⟨i', hd', hmn'⟩ := (matches_row_iff hq').1 h'
    obtain rfl : i = i' := by simpa [hd] using hd'
    exact eq_of_mnemonic_eq hq hq' (hmn.symm.trans hmn')
  · obtain ⟨r, hr, hn⟩ := exists_row i
    exact ⟨r.opRow, opcodeRows_eq ▸ List.mem_map_of_mem hr,
      (opRow_mnemonic r).trans (mnemonic_of_names (encodes_of_mem hr) hn).symm⟩

/-- Settles O4: a word is no command exactly when its opcode has no row or a reserved bit of its row's format is set. -/
theorem reservedEncodingsAreIllegal : Obligations.ReservedEncodingsAreIllegal := by
  intro w
  have h := decode_eq_error_iff (w := w)
  simpa only [ReservedOpcode, formatNOpcodes, opField_eq_div, imm24Field_eq_mod, imm16Field_eq_mod, or_assoc] using h

/-- Settles O5: the decoder runs on the ten words. -/
theorem wordsOfTheSpecDecode : Obligations.WordsOfTheSpecDecode := by
  unfold Obligations.WordsOfTheSpecDecode
  decide

end Sys2Proof

namespace Sys2Proof.Machine

variable {s : State} {w : Word}

theorem runWord_of_decode_error {e : Reject} (h : decode w = .error e) (s : State) : runWord w s = illegalCommand w s := by
  unfold runWord
  rw [h]

theorem illegalCommand_unfaulted (hf : s.faulted = false) :
    illegalCommand w s = .next (s.raise (.illegalCommand, 0) w) := if_neg (by simp [hf])

/-- Settles O10: a presented word that does not decode runs as an illegal command, which raises in an unfaulted block. -/
theorem illegalWordRaisesIllegalCommand : Obligations.IllegalWordRaisesIllegalCommand := by
  intro s w e hf h
  rw [step_present, runWord_of_decode_error h, illegalCommand_unfaulted hf]
  rfl

end Sys2Proof.Machine
end

section
/-! SUPPORT. What the common gate does with a command it drops, one that needs a session there is not, and one that always
runs (R105), and the register file's reads, writes and unimplemented indices (R24, R36). -/

namespace Sys2Proof.Machine

variable {s t : State} {i : Instr} {w : Word} {r : Raised} {k : RuleResult}

/-! The common gate. -/

theorem gateOf_eq_session_iff : gateOf i = .session ↔ Claims.needsNoSession i = false := by
  cases i <;> simp [gateOf, Claims.needsNoSession]

theorem exec_dropped (hf : s.faulted = true) (hg : gateOf i ≠ .always) : exec i s = .next s := by
  rw [exec_eq, command, if_pos ⟨hf, hg⟩]

theorem exec_noSession (hf : s.faulted = false) (hs : s.session = false) (hg : gateOf i = .session) :
    exec i s = .next (s.raise (.sequence, 4) (encode i)) := by
  rw [exec_eq, command, if_neg (by simp [hf]), if_pos ⟨hs, hg⟩]

/-- The commands that run while `FAULTED` run in every state. -/
theorem exec_always (hg : gateOf i = .always) (h : ownRule i s = .ok t) : exec i s = .next t := by
  rw [exec_eq, command, if_neg (by simp [hg]), if_neg (by simp [hg]), h]

theorem exec_unfaulted_ok (hf : s.faulted = false) (hg : gateOf i = .unfaulted) (h : ownRule i s = .ok t) :
    exec i s = .next t :=
  (exec_eq i s).trans (command_ok hf (.inr (by simp [hg])) h)

theorem exec_unfaulted_error (hf : s.faulted = false) (hg : gateOf i = .unfaulted) (h : ownRule i s = .error r) :
    exec i s = .next (s.raise r (encode i)) :=
  (exec_eq i s).trans (command_error hf (.inr (by simp [hg])) h)

theorem illegalCommand_faulted (hf : s.faulted = true) : illegalCommand w s = .next s := if_pos hf

/-! The registers. -/

/-- `CFG[0x00..0x06]` in the order of their indices (R24). -/
def CfgRegs.regs (c : CfgRegs) : List Half := [c.level, c.rows, c.dcols, c.ndata, c.modw, c.rhm, c.margin]

theorem CfgRegs.regs_set (c : CfgRegs) {q : Nat} (hq : q < 7) (v : Half) : (c.set q v).regs = c.regs.set q v := by
  interval_cases q <;> rfl

theorem State.register_cfg (s : State) {q : Nat} (hq : q < 7) :
    s.register q = (s.cfg.regs.getD q 0#16).setWidth 32 := by
  interval_cases q <;> rfl

theorem State.register_cfg_set_same (s : State) {q : Nat} (hq : q < 7) (v : Half) :
    State.register { s with cfg := s.cfg.set q v } q = v.setWidth 32 := by
  have hlen : q < s.cfg.regs.length := hq
  rw [State.register_cfg _ hq, CfgRegs.regs_set _ hq, List.getD_eq_getElem?_getD, List.getElem?_set_self hlen,
    Option.getD_some]

theorem State.register_cfg_set_ne (s : State) {q p : Nat} (hq : q < 7) (hp : p < 7) (hne : p ≠ q) (v : Half) :
    State.register { s with cfg := s.cfg.set q v } p = s.register p := by
  rw [State.register_cfg _ hp, CfgRegs.regs_set _ hq, List.getD_eq_getElem?_getD, List.getElem?_set_ne hne.symm,
    ← List.getD_eq_getElem?_getD, State.register_cfg _ hp]

/-- The indices of R36 that name no register. -/
theorem State.register_unimplemented (s : State) {q : Nat}
    (h : (0x07 ≤ q ∧ q ≤ 0x0F) ∨ (0x1D ≤ q ∧ q ≤ 0x1F) ∨ (0x25 ≤ q ∧ q ≤ 0x2E) ∨ 0x30 ≤ q) : s.register q = 0#32 := by
  unfold State.register
  split
  case h_27 => rfl
  all_goals omega

/-! The tests of `BEGIN` as a list. -/

/-- Tests made in order, each raising its own fault (R11, R103). -/
def needAll (tests : List (Bool × Raised)) (k : RuleResult) : RuleResult :=
  tests.foldr (fun x k => need (x.1 = true) x.2 k) k

theorem needAll_of_find_none {tests : List (Bool × Raised)} (h : tests.find? (fun x => !x.1) = none) :
    needAll tests k = k := by
  induction tests with
  | nil => rfl
  | cons x xs ih =>
    obtain ⟨hx, hxs⟩ : x.1 = true ∧ xs.find? (fun x => !x.1) = none := by simpa using h
    exact (need_pos hx).trans (ih hxs)

theorem needAll_of_find_some {tests : List (Bool × Raised)} {x : Bool × Raised}
    (h : tests.find? (fun x => !x.1) = some x) : needAll tests k = .error x.2 := by
  induction tests with
  | nil => nomatch h
  | cons y ys ih =>
    rw [List.find?_cons] at h
    split at h
    next hy => cases h; exact need_neg (by simpa using hy)
    next hy => exact (need_pos (by simpa using hy)).trans (ih h)

theorem Snapshot.gridAW_eq (S : Snapshot) : S.gridAW = (S.gridW + 31) / 32 * 32 := by
  rw [Snapshot.gridAW, Nat.shiftRight_eq_div_pow, Nat.shiftLeft_eq]

theorem Snapshot.gridAW_mod (S : Snapshot) : S.gridAW % 32 = 0 := by
  rw [Snapshot.gridAW_eq]; exact Nat.mul_mod_left _ _

theorem Snapshot.gridAW_lt (S : Snapshot) : S.gridAW < S.gridW + 32 := by
  rw [Snapshot.gridAW_eq]; omega

/-- `BEGIN`'s tests of the snapshot it would take are R103's ten tests of the configuration registers. -/
theorem checkSettings_eq_needAll (c : CfgRegs) (n : Nat) :
    checkSettings (Snapshot.ofCfg c) n k = needAll (Claims.beginTests c n) k := by
  simp only [checkSettings, needAll, Claims.beginTests, List.foldr_cons, List.foldr_nil, decide_eq_true_eq,
    Snapshot.gridAW_eq]
  rfl

end Sys2Proof.Machine
end

section
/-! The gate of a faulted block and of a block without a session (R105), and the system commands `NOP`, `WRCFG`, `RDREG`,
`BEGIN` and `SRESET` (R100 to R104). -/

namespace Sys2Proof.Machine

/-- Settles O9: a word is a command the gate drops or an illegal word, which a faulted block drops too. -/
theorem faultedBlockDropsEveryOtherWord : Obligations.FaultedBlockDropsEveryOtherWord := by
  intro s w hf h
  rw [step_present]
  cases hd : decode w with
  | ok i =>
    have hg : gateOf i ≠ .always := gateOf_eq_always_iff.not.2 (by simp [h i hd])
    rw [runWord_of_decode hd, exec_dropped hf hg]
  | error e => rw [runWord_of_decode_error hd, illegalCommand_faulted hf]

/-- Settles O11: these are the commands whose gate asks for a session. -/
theorem noSessionRaisesSequenceFour : Obligations.NoSessionRaisesSequenceFour :=
  fun _ _ hf hs hi => exec_noSession hf hs (gateOf_eq_session_iff.2 hi)

/-- Settles O22: the gate lets `NOP` through in every state, and its rule leaves the state. -/
theorem nopDoesNothing : Obligations.NopDoesNothing :=
  ⟨fun _ => exec_always rfl rfl, by decide⟩

/-- Settles O23: a configuration register reads back what was written to it, and every other one what it held. -/
theorem wrcfgWritesOneRegister : Obligations.WrcfgWritesOneRegister := by
  refine ⟨fun s reg imm16 hf himm => ⟨fun hreg => ?_, fun hreg => ?_⟩, fun _ _ => rfl⟩
  · exact ⟨_, exec_unfaulted_ok hf rfl (needIndex_pos hreg), rfl,
      (s.register_cfg_set_same hreg _).trans (BitVec.setWidth_ofNat_of_le_of_lt (by decide) himm),
      fun _ hq hne => s.register_cfg_set_ne hreg hq hne _⟩
  · exact exec_unfaulted_error hf rfl (needIndex_neg (Nat.not_lt.2 hreg))

/-- Settles O24: the gate lets `RDREG` through in every state; the registers are read off the map. -/
theorem rdregRespondsTheRegister : Obligations.RdregRespondsTheRegister := by
  refine ⟨⟨fun s reg => exec_always rfl rfl, fun s => ?_⟩, fun _ => rfl⟩
  exact ⟨rfl, rfl, rfl, rfl, rfl, rfl, rfl, rfl, rfl, rfl, rfl, rfl, rfl, rfl, rfl, rfl, rfl, rfl, rfl, rfl,
    rfl, rfl, rfl, rfl, rfl, rfl, fun _ => s.register_unimplemented⟩

/-- Settles O26: the rule makes the ten tests in order; the operation's geometry is the snapshot's. -/
theorem beginTestsThenOpensTheSession : Obligations.BeginTestsThenOpensTheSession := by
  refine ⟨fun s hf => ?_, by decide⟩
  have hrule : ownRule .begin_ s = needAll (Claims.beginTests s.cfg s.inst.fbWords)
      (.ok (s.openSession (Snapshot.ofCfg s.cfg))) := checkSettings_eq_needAll _ _
  split
  next r hfail => exact exec_unfaulted_error hf rfl (hrule.trans (needAll_of_find_some hfail))
  next hpass =>
    exact ⟨_, exec_unfaulted_ok hf rfl (hrule.trans (needAll_of_find_none hpass)), rfl, rfl, rfl, rfl, rfl,
      Snapshot.gridAW_mod _, Snapshot.gridW_le_gridAW _, Snapshot.gridAW_lt _,
      Nat.mul_div_cancel' (Nat.dvd_of_mod_eq_zero (Snapshot.gridAW_mul_gridH_mod _)), fun _ => rfl⟩

/-- Settles O27: the gate lets `SRESET` through in every state, and its rule leaves the reset table. -/
theorem sresetGivesTheResetTable : Obligations.SresetGivesTheResetTable :=
  ⟨fun s => ⟨s.resetNow, exec_always rfl rfl, rfl, rfl, rfl, rfl, rfl, rfl, rfl, rfl, rfl, fun _ => rfl, rfl, rfl, rfl⟩,
    by decide⟩

end Sys2Proof.Machine
end

section
/-! SUPPORT. The corrector's arithmetic (R120 to R124) in the integers modulo 929, and what its memory operations leave in
the accumulator and in the codeword memory (R37, R38). -/

namespace Sys2Proof.Machine

variable {s : State} {i : Instr} {r : Raised}

/-! A command of an open, unfaulted session (R105). -/

/-- The command completes when its tests pass. -/
theorem State.ready.exec_ok (hr : s.ready) (hp : testsPass i s) : exec i s = .next (operation i s) :=
  (exec_eq i s).trans (command_ok hr.1 (.inl hr.2) (ownRule_eq_ok.2 ⟨hp, rfl⟩))

/-- The command faults with what its own rule raises. -/
theorem State.ready.exec_error (hr : s.ready) (h : ownRule i s = .error r) :
    exec i s = .next (s.raise r (encode i)) :=
  (exec_eq i s).trans (command_error hr.1 (.inl hr.2) h)

/-! The primitives are the operations of `Fin 929`. -/

theorem toCodeword_val_of_le {v : Nat} (h : v ≤ 928) : (toCodeword v).val = v :=
  Nat.mod_eq_of_lt (Nat.lt_succ_of_le h)

@[simp] theorem toCodeword_val (a : Codeword) : toCodeword a.val = a := Fin.ext (Nat.mod_eq_of_lt a.isLt)

theorem mulmod_eq_mul (a b : Codeword) : mulmod a b = a * b := Fin.ext (Fin.val_mul a b).symm

theorem addmod_eq_add (a b : Codeword) : addmod a b = a + b := Fin.ext (Fin.val_add a b).symm

theorem negmod_val (a : Codeword) : (negmod a).val = (929 - a.val) % 929 := by
  unfold negmod
  split
  next h => rw [h]; rfl
  next => rfl

theorem negmod_eq_neg (a : Codeword) : negmod a = -a := Fin.ext ((negmod_val a).trans (Fin.val_neg' a).symm)

@[simp] theorem mulmod_zero_left (a : Codeword) : mulmod 0 a = 0 := (mulmod_eq_mul 0 a).trans (Fin.zero_mul a)

@[simp] theorem addmod_zero_right (a : Codeword) : addmod a 0 = a := (addmod_eq_add a 0).trans (add_zero a)

@[simp] theorem negmod_zero : negmod 0 = 0 := rfl

@[simp] theorem addmod_negmod_self (a : Codeword) : addmod (negmod a) a = 0 := by
  rw [addmod_eq_add, negmod_eq_neg, neg_add_cancel]

/-! The absorb step. -/

theorem absorb_cons (A : List Codeword) (cw c : Codeword) (cs : List Codeword) :
    absorb A cw (c :: cs) = negmod (mulmod (addmod cw (A.getLastD 0)) c) ::
      List.zipWith (fun prev cj => addmod prev (negmod (mulmod (addmod cw (A.getLastD 0)) cj))) A cs := rfl

theorem getLastD_eq_getD (A : List Codeword) : A.getLastD 0 = A.getD (A.length - 1) 0 := by
  rw [List.getLastD_eq_getLast?, List.getLast?_eq_getElem?, List.getD_eq_getElem?_getD]

theorem absorb_getD_zero (A : List Codeword) (cw c : Codeword) (cs : List Codeword) :
    (absorb A cw (c :: cs)).getD 0 0 = negmod (mulmod (addmod cw (A.getD (A.length - 1) 0)) c) := by
  rw [← getLastD_eq_getD, absorb_cons, List.getD_cons_zero]

/-- A slot after the first takes its predecessor's old value. -/
theorem absorb_getD_succ {A cs : List Codeword} (cw c : Codeword) {j : Nat} (hA : j < A.length) (hcs : j < cs.length) :
    (absorb A cw (c :: cs)).getD (j + 1) 0 =
      addmod (A.getD j 0) (negmod (mulmod (addmod cw (A.getD (A.length - 1) 0)) (cs.getD j 0))) := by
  rw [← getLastD_eq_getD, absorb_cons, List.getD_cons_succ, List.getD_eq_getElem _ _ (by simp [hA, hcs]),
    List.getElem_zipWith, List.getD_eq_getElem _ _ hA, List.getD_eq_getElem _ _ hcs]

theorem absorbAll_cons (A : List Codeword) (cw : Codeword) (cws C : List Codeword) :
    absorbAll A (cw :: cws) C = absorbAll (absorb A cw C) cws C := rfl

theorem absorbAll_append (A cws cws' C : List Codeword) :
    absorbAll A (cws ++ cws') C = absorbAll (absorbAll A cws C) cws' C := List.foldl_append

/-! Reads after the corrector's writes. -/

theorem State.accAt_setAcc (s : State) (A : List Codeword) (j : Nat) :
    (s.setAcc A).accAt j = if j < A.length then A.getD j 0 else s.accAt j := by
  have hread := Memory.read_writeList (d := (0 : Codeword)) s.acc 0 A j
  simp only [Nat.zero_le, true_and, Nat.zero_add, Nat.sub_zero] at hread
  exact hread

theorem State.accAt_setAcc_slots {A : List Codeword} (hA : A.length = s.snap.k) (j : Nat) :
    (s.setAcc A).accAt j = if j < s.snap.k then A.getD j 0 else s.accAt j := hA ▸ s.accAt_setAcc A j

theorem State.cwAt_storeCws (s : State) (lo : Nat) (vs : List Codeword) (p : Nat) :
    (s.storeCws lo vs).cwAt p = if lo ≤ p ∧ p < lo + vs.length then vs.getD (p - lo) 0 else s.cwAt p :=
  Memory.read_writeList s.cw lo vs p

theorem State.cwAt_storeCws_outside (s : State) {lo p : Nat} {vs : List Codeword} (h : p < lo ∨ lo + vs.length ≤ p) :
    (s.storeCws lo vs).cwAt p = s.cwAt p :=
  (s.cwAt_storeCws lo vs p).trans (if_neg (by omega))

theorem State.cwAt_storeCws_add (s : State) (lo : Nat) {vs : List Codeword} {p : Nat} (h : p < vs.length) :
    (s.storeCws lo vs).cwAt (lo + p) = vs.getD p 0 := by
  rw [s.cwAt_storeCws, if_pos (by omega), Nat.add_sub_cancel_left]

theorem State.cwValid_storeCws_inside (s : State) {lo p : Nat} {vs : List Codeword} (h : lo ≤ p ∧ p < lo + vs.length) :
    (s.storeCws lo vs).cwValid p = true := cwv_read_writeList_true vs (.inr h)

theorem State.cwValid_storeCws_outside (s : State) {lo p : Nat} {vs : List Codeword}
    (h : p < lo ∨ lo + vs.length ≤ p) : (s.storeCws lo vs).cwValid p = s.cwValid p :=
  (Memory.read_writeList s.cwv lo _ p).trans (if_neg (by rw [List.length_map]; omega))

/-! The slots and the runs of codewords as lists. -/

theorem State.accSlots_getD (s : State) {j : Nat} (h : j < s.snap.k) : s.accSlots.getD j 0 = s.accAt j := by
  rw [List.getD_eq_getElem _ _ (by simpa using h)]
  simp [State.accSlots]

theorem State.accSlots_setAcc {A : List Codeword} (h : A.length = s.snap.k) : (s.setAcc A).accSlots = A := by
  refine List.ext_getElem (by simp [h]) fun j _ hj => ?_
  rw [← List.getD_eq_getElem _ 0, State.accSlots_getD _ (h ▸ hj), s.accAt_setAcc, if_pos hj, List.getD_eq_getElem]

@[simp] theorem State.length_absorb_accSlots (s : State) (cw : Codeword) :
    (absorb s.accSlots cw s.coeffs).length = s.snap.k := by
  rw [length_absorb cw (by simp), s.length_coeffs]

@[simp] theorem State.length_absorbAll_accSlots (s : State) (cws : List Codeword) :
    (absorbAll s.accSlots cws s.coeffs).length = s.snap.k := by
  rw [length_absorbAll cws (by simp), s.length_coeffs]

theorem State.cwRange_succ (s : State) (lo n : Nat) : s.cwRange lo (n + 1) = s.cwAt lo :: s.cwRange (lo + 1) n := by
  rw [State.cwRange, List.range'_succ, List.map_cons, State.cwRange]

theorem State.length_cwRange (s : State) (lo n : Nat) : (s.cwRange lo n).length = n := by simp [State.cwRange]

/-- Storing codewords after the first `lo` entries appends them to those entries. -/
theorem State.cwRange_storeCws (s : State) (lo : Nat) (vs : List Codeword) :
    (s.storeCws lo vs).cwRange 0 (lo + vs.length) = s.cwRange 0 lo ++ vs := by
  refine List.ext_getElem (by simp [State.length_cwRange]) fun p hp _ => ?_
  have hp : p < lo + vs.length := by simpa [State.length_cwRange] using hp
  by_cases hlo : p < lo
  · have hread := s.cwAt_storeCws_outside (vs := vs) (.inl hlo)
    simpa [State.cwRange, List.getElem_append_left, State.length_cwRange, hlo] using hread
  · obtain ⟨q, rfl⟩ := Nat.exists_eq_add_of_le (Nat.not_lt.1 hlo)
    have hq : q < vs.length := by omega
    have hread := s.cwAt_storeCws_add lo hq
    rw [List.getD_eq_getElem _ _ hq] at hread
    simpa [State.cwRange, List.getElem_append_right] using hread

theorem all_beq_zero_iff (A : List Codeword) : A.all (· == 0) = true ↔ ∀ j, j < A.length → A.getD j 0 = 0 := by
  simp only [List.all_eq_true, beq_iff_eq, List.forall_mem_iff_forall_getElem]
  exact forall₂_congr fun j hj => by rw [List.getD_eq_getElem _ _ hj]

/-! Writes that change nothing, and writes over writes. -/

theorem State.setAcc_accSlots (h : s.acc.wf 0) : s.setAcc s.accSlots = s := by
  have hacc : (s.setAcc s.accSlots).acc = s.acc := by
    refine Memory.ext_of_wf (Memory.wf_writeList h 0 _) h fun j => ?_
    show (s.setAcc s.accSlots).accAt j = s.accAt j
    rw [s.accAt_setAcc, s.length_accSlots]
    split
    next hj => exact s.accSlots_getD hj
    next => rfl
  exact congrArg (fun m => { s with acc := m }) hacc

theorem State.setAcc_setAcc (h : s.acc.wf 0) {A B : List Codeword} (hAB : A.length = B.length) :
    (s.setAcc A).setAcc B = s.setAcc B := by
  have hacc : ((s.setAcc A).setAcc B).acc = (s.setAcc B).acc := by
    refine Memory.ext_of_wf (Memory.wf_writeList (Memory.wf_writeList h 0 A) 0 B) (Memory.wf_writeList h 0 B) fun j => ?_
    show ((s.setAcc A).setAcc B).accAt j = (s.setAcc B).accAt j
    rw [State.accAt_setAcc, State.accAt_setAcc, State.accAt_setAcc, hAB]
    split <;> rfl
  exact congrArg (fun m => { s with acc := m }) hacc

theorem Memory.write_read_self {α : Type} [DecidableEq α] {d : α} {m : Memory α} (h : m.wf d) (a : Nat) :
    m.write d a (m.read d a) = m := by
  refine Memory.ext_of_wf (Memory.wf_write h a _) h fun b => ?_
  rw [Memory.read_write]
  split
  next hb => rw [hb]
  next => rfl

/-- Storing a valid codeword where it already stands changes nothing. -/
theorem State.storeCws_cwAt (hcw : s.cw.wf 0) (hcwv : s.cwv.wf false) {p : Nat} (hv : s.cwValid p = true) :
    s.storeCws p [s.cwAt p] = s := by
  have hentry : s.cw.write 0 p (s.cwAt p) = s.cw := Memory.write_read_self hcw p
  have hbit : s.cwv.write false p true = s.cwv := hv ▸ Memory.write_read_self hcwv p
  show { s with cw := s.cw.write 0 p (s.cwAt p), cwv := s.cwv.write false p true } = s
  rw [hentry, hbit]

end Sys2Proof.Machine
end

section
/-! The corrector's arithmetic and its commands `ECC.START`, `ECC.PUSH`, `ECC.RUN`, `ECC.FIN`, `ECC.RDACC` and `ECC.CHK`
(R120 to R131). -/

namespace Sys2Proof.Machine

variable {s : State}

/-- Settles O28: the primitives are the product, sum and negation of `Fin 929`, whose laws they have. -/
theorem gf929PrimitivesAreExact : Obligations.Gf929PrimitivesAreExact := by
  intro a b
  have ha := a.isLt
  have hb := b.isLt
  have hprod : a.val * b.val ≤ 928 * 928 := Nat.mul_le_mul (by omega) (by omega)
  have hneg : (negmod a).val = if a.val = 0 then 0 else 929 - a.val := by
    rw [negmod_val]
    split <;> omega
  have hsub : (addmod a (negmod b)).val = (a.val + 929 - b.val) % 929 := by
    show (a.val + (negmod b).val) % 929 = _
    rw [negmod_val]
    omega
  refine ⟨hprod, rfl, by omega, rfl, hneg, negmod_val a, hsub, by omega, ?_, ?_, addmod_zero_right a, ?_⟩
  · rw [mulmod_eq_mul, Fin.mul_zero]
  · rw [mulmod_eq_mul, Fin.mul_one]
  · rw [addmod_eq_add, negmod_eq_neg, add_neg_cancel]

/-- Settles O29: slot 0 has no predecessor, and every later slot reads its predecessor's old value. -/
theorem absorbUpdatesEverySlotFromTheOldArray : Obligations.AbsorbUpdatesEverySlotFromTheOldArray := by
  intro A C cw hlen hpos
  obtain ⟨c, cs, rfl⟩ := List.exists_cons_of_length_pos hpos
  refine ⟨(length_absorb cw hlen).trans hlen.symm, absorb_getD_zero A cw c cs, fun j hj hjA => ?_⟩
  obtain ⟨j, rfl⟩ := Nat.exists_eq_add_of_le' hj
  rw [List.length_cons] at hlen
  exact absorb_getD_succ cw c (by omega) (by omega)

/-- Settles O30: `ECC.START` makes no test, and its operation fills the session's slots with 0. -/
theorem eccStartClearsTheAccumulator : Obligations.EccStartClearsTheAccumulator :=
  ⟨fun s hr => ⟨_, hr.exec_ok (i := .eccStart) trivial, rfl, Memory.read_fill s.acc s.snap.k 0⟩, by decide⟩

/-- Settles O31: the three tests in order, and an operation that stores one entry and absorbs it. -/
theorem eccPushStoresAndAbsorbs : Obligations.EccPushStoresAndAbsorbs := by
  refine ⟨fun s cw hr => ⟨fun hphase hcount hcw => ?_, fun hphase => ?_, fun hphase hcount => ?_,
    fun hphase hcount hcw => ?_⟩, fun _ => rfl⟩
  · refine ⟨_, hr.exec_ok (i := .eccPush cw) ⟨hphase, hcount, hcw⟩, rfl, ?_, ?_, fun p hp => ⟨?_, ?_⟩, fun j => ?_⟩
    · have hread : (operation (.eccPush cw) s).cwAt s.eccCount = toCodeword cw :=
        s.cwAt_storeCws_add s.eccCount (vs := [toCodeword cw]) Nat.one_pos
      rw [hread, toCodeword_val_of_le hcw]
    · exact s.cwValid_storeCws_inside (vs := [toCodeword cw]) ⟨Nat.le_refl _, Nat.lt_succ_self _⟩
    · exact s.cwAt_storeCws_outside (vs := [toCodeword cw]) (by rw [List.length_singleton]; omega)
    · exact s.cwValid_storeCws_outside (vs := [toCodeword cw]) (by rw [List.length_singleton]; omega)
    · exact State.accAt_setAcc_slots (s.length_absorb_accSlots _) j
  · exact hr.exec_error (needPhase_neg hphase)
  · exact hr.exec_error ((needPhase_pos hphase).trans (need_neg (Nat.not_lt.2 hcount)))
  · exact hr.exec_error ((needPhase_pos hphase).trans ((need_pos hcount).trans (needCodeword_neg (Nat.not_le.2 hcw))))

/-- Settles O32: the test of the phase, the search for the lowest invalid entry, and an operation that folds the absorb
step over what the memory holds. -/
theorem eccRunAbsorbsTheRest : Obligations.EccRunAbsorbsTheRest := by
  refine ⟨fun s hr => ⟨fun hphase hvalid => ?_, fun hphase => ?_, fun p hphase hlo hhi hv hlow => ?_,
    fun hinv hphase hcount => ?_⟩, by decide⟩
  · refine ⟨_, hr.exec_ok (i := .eccRun) ⟨hphase, fun p hlo hhi => hvalid p hlo (by omega)⟩, rfl, fun j => ?_⟩
    exact State.accAt_setAcc_slots (s.length_absorbAll_accSlots _) j
  · exact hr.exec_error (i := .eccRun) (needPhase_neg hphase)
  · exact hr.exec_error (i := .eccRun) ((needPhase_pos hphase).trans (needValid_neg hlo (by omega) hv hlow))
  · rw [hr.exec_ok (i := .eccRun) ⟨hphase, fun p hlo hhi => by omega⟩]
    show Host.Outcome.next { s.setAcc (absorbAll s.accSlots (s.cwRange s.eccCount (s.snap.ndata - s.eccCount)) s.coeffs)
      with eccCount := s.snap.ndata } = .next s
    rw [← hcount, Nat.sub_self]
    show Host.Outcome.next { s.setAcc s.accSlots with eccCount := s.eccCount } = .next s
    rw [State.setAcc_accSlots hinv.memories.acc.1]

/-- The codeword that stands at `ECC_COUNT` absorbed and counted. -/
def State.absorbStored (s : State) : State :=
  { s.setAcc (absorb s.accSlots (s.cwAt s.eccCount) s.coeffs) with eccCount := s.eccCount + 1 }

theorem State.absorbStored_accSlots (s : State) :
    s.absorbStored.accSlots = absorb s.accSlots (s.cwAt s.eccCount) s.coeffs :=
  State.accSlots_setAcc (s.length_absorb_accSlots _)

/-- Pushing the valid codeword that stands at `ECC_COUNT` absorbs and counts it, and stores nothing new. -/
theorem operation_eccPush_stored (hs : s.MemoriesOk) (hv : s.cwValid s.eccCount = true) :
    operation (.eccPush (s.cwAt s.eccCount).val) s = s.absorbStored := by
  have hstore := State.storeCws_cwAt hs.cw.1 hs.cwv.1 hv
  simp only [operation, toCodeword_val, hstore, State.absorbStored]

/-- A run is the absorption of its first codeword and the run of what is left. -/
theorem operation_eccRun_eq (hs : s.MemoriesOk) (hcount : s.eccCount < s.snap.ndata) :
    operation .eccRun s = operation .eccRun s.absorbStored := by
  obtain ⟨n, hn⟩ : ∃ n, s.snap.ndata - s.eccCount = n + 1 := Nat.exists_eq_succ_of_ne_zero (by omega)
  have hn' : s.snap.ndata - (s.eccCount + 1) = n := by omega
  have hfirst : absorbAll s.accSlots (s.cwRange s.eccCount (s.snap.ndata - s.eccCount)) s.coeffs =
      absorbAll s.absorbStored.accSlots (s.cwRange (s.eccCount + 1) (s.snap.ndata - (s.eccCount + 1))) s.coeffs := by
    rw [hn, hn', s.cwRange_succ, absorbAll_cons, s.absorbStored_accSlots]
  have hover := State.setAcc_setAcc hs.acc.1 (A := absorb s.accSlots (s.cwAt s.eccCount) s.coeffs)
    (B := absorbAll s.absorbStored.accSlots (s.cwRange (s.eccCount + 1) (s.snap.ndata - (s.eccCount + 1))) s.coeffs)
    (by rw [← hfirst, s.length_absorb_accSlots, s.length_absorbAll_accSlots])
  exact congrArg (fun t : State => { t with eccCount := s.snap.ndata }) ((congrArg s.setAcc hfirst).trans hover.symm)

/-- Settles O33: the pushed codeword is the first the run would absorb. -/
theorem eccRunEqualsPushingWhatIsStored : Obligations.EccRunEqualsPushingWhatIsStored := by
  intro s hinv hr hphase hcount hv hvalid
  have hcw : (s.cwAt s.eccCount).val ≤ 928 := Nat.le_of_lt_succ (s.cwAt s.eccCount).isLt
  have hall : s.AllValid s.eccCount (s.snap.ndata - s.eccCount) := fun p hlo hhi => hvalid p hlo (by omega)
  have hrest : s.absorbStored.AllValid (s.eccCount + 1) (s.snap.ndata - (s.eccCount + 1)) :=
    fun p hlo hhi => hvalid p (by omega) (by omega)
  have hrun : exec .eccRun s.absorbStored = .next (operation .eccRun s.absorbStored) :=
    State.ready.exec_ok hr ⟨hphase, hrest⟩
  refine ⟨s.absorbStored, operation .eccRun s, ?_, ?_, hr.exec_ok ⟨hphase, hall⟩⟩
  · rw [← operation_eccPush_stored hinv.memories hv]
    exact hr.exec_ok ⟨hphase, hcount, hcw⟩
  · rw [hrun, operation_eccRun_eq hinv.memories hcount]

/-- Settles O34: the two tests, and an operation that stores the negated slots in reverse after the data. -/
theorem eccFinEmitsInReverseOrder : Obligations.EccFinEmitsInReverseOrder := by
  refine ⟨fun s hr => ⟨fun hphase hcount => ?_, fun hphase => ?_, fun hphase hcount => ?_⟩, by decide⟩
  · have hlen : (s.accSlots.map negmod).length = s.snap.k := by simp
    have hlen' : (s.accSlots.map negmod).reverse.length = s.snap.k := by simp
    have hslot (j : Nat) (hj : j < s.snap.k) : (s.accSlots.map negmod).getD j 0 = negmod (s.accAt j) := by
      rw [← s.accSlots_getD hj]; exact List.getD_map s.accSlots 0 negmod
    have hacc (j : Nat) : (operation .eccFin s).accAt j = if j < s.snap.k then negmod (s.accAt j) else s.accAt j := by
      refine (State.accAt_setAcc_slots hlen j).trans ?_
      split
      next hj => exact hslot j hj
      next => rfl
    refine ⟨_, hr.exec_ok (i := .eccFin) ⟨hphase, hcount⟩, rfl, hacc, fun p hp => ⟨?_, ?_⟩, fun p hp => ⟨?_, ?_⟩⟩
    · refine (s.cwAt_storeCws_add s.snap.ndata (hlen'.symm ▸ hp)).trans ?_
      rw [List.getD_reverse _ (hlen.symm ▸ hp), hlen, hslot _ (by omega), hacc, if_pos (by omega)]
    · exact s.cwValid_storeCws_inside (vs := (s.accSlots.map negmod).reverse) (by omega)
    · exact s.cwAt_storeCws_outside (vs := (s.accSlots.map negmod).reverse) (hlen'.symm ▸ hp)
    · exact s.cwValid_storeCws_outside (vs := (s.accSlots.map negmod).reverse) (hlen'.symm ▸ hp)
  · exact hr.exec_error (i := .eccFin) (needPhase_neg hphase)
  · exact hr.exec_error (i := .eccFin) ((needPhase_pos hphase).trans (need_neg hcount))

/-- Settles O35: the two tests in order, and an operation that appends the slot. -/
theorem eccRdaccRespondsOneSlot : Obligations.EccRdaccRespondsOneSlot :=
  ⟨fun _ j hr =>
    ⟨fun hphase hj => hr.exec_ok (i := .eccRdacc j) ⟨hphase, hj⟩,
      fun hphase => hr.exec_error (need_neg (not_not.2 hphase)),
      fun hphase hj => hr.exec_error ((need_pos hphase).trans (needIndex_neg (Nat.not_lt.2 hj)))⟩,
    fun _ => rfl⟩

/-- Settles O36: the test of the phase, the search for the lowest invalid entry, which a sound finished run has none of,
and an operation that recomputes the remainder. -/
theorem eccChkRespondsWhetherTheResidueIsZero : Obligations.EccChkRespondsWhetherTheResidueIsZero := by
  refine ⟨fun s hr => ⟨fun hphase hvalid => ?_, fun hphase => ?_, fun p hphase hp hv hlow => ?_⟩, by decide⟩
  · have hvalid : ∀ p, p < s.snap.ndata + s.snap.k → s.cwValid p = true :=
      hvalid.elim (fun hinv => (hinv.corrector.finished (.inl hphase)).2) id
    have hacc (j : Nat) : (operation .eccChk s).accAt j =
        if j < s.snap.k then s.residue.getD j 0 else s.accAt j :=
      State.accAt_setAcc_slots s.length_residue j
    refine ⟨_, hr.exec_ok (i := .eccChk) ⟨hphase, fun p _ hp => hvalid p (by omega)⟩, rfl, fun j => ?_, ?_⟩
    · rw [hacc, List.range_eq_range']; rfl
    · have hzero : s.residue.all (· == 0) = true ↔ ∀ j, j < s.snap.k → (operation .eccChk s).accAt j = 0 := by
        rw [all_beq_zero_iff, s.length_residue]
        exact forall₂_congr fun j hj => by rw [hacc, if_pos hj]
      simp only [← hzero]
      show s.rsp ++ [BitVec.ofNat 32 (s.residue.all (· == 0)).toNat] = _
      cases s.residue.all (· == 0) <;> rfl
  · exact hr.exec_error (i := .eccChk) (needPhase_neg hphase)
  · exact hr.exec_error (i := .eccChk)
      ((needPhase_pos hphase).trans (needValid_neg (Nat.zero_le p) (by omega) hv fun j _ => hlow j))

end Sys2Proof.Machine
end

section
/-! The sum check (R132). While the block absorbs, the accumulator is the remainder of what the codeword memory holds below
`ECC_COUNT`; a last slot met by its own negation is shifted out, so absorbing what `ECC.FIN` stores leaves nothing. -/

namespace Sys2Proof.Machine

variable {s t : State}

/-! Lists of commands. -/

theorem execList_cons {i : Instr} (h : exec i s = .next t) (is : List Instr) : execList (i :: is) s = execList is t := by
  rw [execList, h]

theorem execList_append {is : List Instr} (h : execList is s = .next t) (js : List Instr) :
    execList (is ++ js) s = execList js t := by
  induction is generalizing s with
  | nil => cases h; rfl
  | cons i is ih =>
    obtain ⟨u, hu⟩ := exec_next i s
    rw [execList_cons hu] at h
    rw [List.cons_append, execList_cons hu, ih h]

/-! Absorbing the negated slots, highest first. -/

/-- A codeword that cancels the last slot makes the absorb step a shift. -/
theorem absorb_negmod_last (B : List Codeword) (b : Codeword) {C : List Codeword} (h : (B ++ [b]).length = C.length) :
    absorb (B ++ [b]) (negmod b) C = 0 :: B := by
  obtain ⟨c, cs, rfl⟩ : ∃ c cs, C = c :: cs := List.exists_cons_of_length_pos (by simp [← h])
  have hcs : B.length = cs.length := by simpa using h
  have hshift : List.zipWith (fun prev _ => prev) (B ++ [b]) cs = B :=
    List.ext_getElem (by simp [hcs]) fun j _ hj => by rw [List.getElem_zipWith, List.getElem_append_left hj]
  rw [absorb_cons]
  simpa using hshift

theorem absorbAll_negmod_reverse (B : List Codeword) (m : Nat) {C : List Codeword} (h : m + B.length = C.length) :
    absorbAll (List.replicate m 0 ++ B) (B.map negmod).reverse C = List.replicate (m + B.length) 0 := by
  induction B using List.reverseRecOn generalizing m with
  | nil => simp [absorbAll]
  | append_singleton B b ih =>
    have hlen : m + 1 + B.length = C.length := by rw [List.length_append, List.length_singleton] at h; omega
    rw [List.map_append, List.reverse_append, List.map_singleton, List.reverse_singleton, List.singleton_append,
      absorbAll_cons, ← List.append_assoc, absorb_negmod_last _ _ (by simpa [Nat.add_assoc] using h), ← List.cons_append,
      ← List.replicate_succ, ih (m + 1) hlen, hlen, h]

/-! The accumulator is a remainder. -/

/-- The remainder of the first `n` codewords, from an all-zero accumulator (R131). -/
def State.remainder (s : State) (n : Nat) : List Codeword :=
  absorbAll (List.replicate s.snap.k 0) (s.cwRange 0 n) s.coeffs

@[simp] theorem State.length_remainder (s : State) (n : Nat) : (s.remainder n).length = s.snap.k := by
  rw [State.remainder, length_absorbAll _ (by simp), s.length_coeffs]

theorem State.residue_eq_remainder (s : State) : s.residue = s.remainder (s.snap.ndata + s.snap.k) := rfl

/-- Storing codewords after the first `lo` entries continues the remainder with them. -/
theorem State.remainder_storeCws (s : State) (lo : Nat) (vs : List Codeword) :
    (s.storeCws lo vs).remainder (lo + vs.length) = absorbAll (s.remainder lo) vs s.coeffs := by
  rw [State.remainder, s.cwRange_storeCws, absorbAll_append]
  rfl

/-- A sound block in a session that absorbs: its accumulator is the remainder of the codewords counted (R127). -/
structure State.Absorbing (s : State) : Prop where
  inv : s.Inv
  ready : s.ready
  phase : s.eccPhase = .absorb
  acc : s.accSlots = s.remainder s.eccCount

theorem operation_eccStart_absorbing (hinv : s.Inv) (hr : s.ready) : (operation .eccStart s).Absorbing where
  inv := hinv.after_operation (.inl hr.2) trivial
  ready := hr
  phase := rfl
  acc := by
    refine List.eq_replicate_iff.2 ⟨State.length_accSlots _, fun a ha => ?_⟩
    obtain ⟨j, hj, rfl⟩ := List.mem_map.1 ha
    exact (Memory.read_fill s.acc s.snap.k 0 j).trans (if_pos (List.mem_range.1 hj))

theorem State.Absorbing.eccPush (h : s.Absorbing) {cw : Nat} (hp : testsPass (.eccPush cw) s) :
    (operation (.eccPush cw) s).Absorbing where
  inv := h.inv.after_operation (.inl h.ready.2) hp
  ready := h.ready
  phase := h.phase
  acc :=
    calc (operation (.eccPush cw) s).accSlots = absorb s.accSlots (toCodeword cw) s.coeffs :=
          State.accSlots_setAcc (s := s.storeCws s.eccCount [toCodeword cw]) (s.length_absorb_accSlots _)
      _ = absorbAll (s.remainder s.eccCount) [toCodeword cw] s.coeffs := by rw [h.acc]; rfl
      _ = (operation (.eccPush cw) s).remainder (s.eccCount + 1) :=
          (s.remainder_storeCws s.eccCount [toCodeword cw]).symm

theorem State.Absorbing.pushes {data : List Nat} (h : s.Absorbing) (hcount : s.eccCount + data.length ≤ s.snap.ndata)
    (hdata : ∀ v ∈ data, v ≤ 928) :
    ∃ t, execList (pseudoPushcw data) s = .next t ∧ t.Absorbing ∧ t.eccCount = s.eccCount + data.length ∧
      t.snap = s.snap ∧ t.rsp = s.rsp := by
  induction data generalizing s with
  | nil => exact ⟨s, rfl, h, rfl, rfl, rfl⟩
  | cons v vs ih =>
    rw [List.length_cons] at hcount
    rw [List.forall_mem_cons] at hdata
    have hp : testsPass (.eccPush v) s := ⟨h.phase, by omega, hdata.1⟩
    obtain ⟨t, ht, habs, hc, hsnap, hrsp⟩ := ih (h.eccPush hp)
      (show s.eccCount + 1 + vs.length ≤ s.snap.ndata by omega) hdata.2
    refine ⟨t, (execList_cons (h.ready.exec_ok hp) _).trans ht, habs, hc.trans ?_, hsnap, hrsp⟩
    show s.eccCount + 1 + vs.length = s.eccCount + (v :: vs).length
    rw [List.length_cons]
    omega

/-- What `ECC.FIN` stores after the data takes the remainder to zero. -/
theorem State.Absorbing.residue_eccFin (h : s.Absorbing) (hcount : s.eccCount = s.snap.ndata) :
    (operation .eccFin s).residue = List.replicate s.snap.k 0 := by
  have hlen : (s.accSlots.map negmod).reverse.length = s.snap.k := by simp
  calc (operation .eccFin s).residue
      = (s.storeCws s.snap.ndata (s.accSlots.map negmod).reverse).remainder
          (s.snap.ndata + (s.accSlots.map negmod).reverse.length) := by rw [hlen]; exact State.residue_eq_remainder _
    _ = absorbAll s.accSlots (s.accSlots.map negmod).reverse s.coeffs := by
        rw [s.remainder_storeCws, h.acc, hcount]
    _ = List.replicate s.snap.k 0 := by
        simpa using absorbAll_negmod_reverse s.accSlots 0 (C := s.coeffs) (by simp)

/-- Settles O37: the pushes leave the remainder of the data, `ECC.FIN` stores its negation, and the residue is zero. -/
theorem sumCheckAlwaysHolds : Obligations.SumCheckAlwaysHolds := by
  intro s data hinv hr hlen hdata
  obtain ⟨t, ht, habs, hcount, hsnap, hrsp⟩ := (operation_eccStart_absorbing hinv hr).pushes
    (show 0 + data.length ≤ s.snap.ndata by omega) hdata
  have hrsp : t.rsp = s.rsp := hrsp
  have hcount : t.eccCount = t.snap.ndata := by
    rw [hcount, hsnap]
    show 0 + data.length = s.snap.ndata
    omega
  have hfin : testsPass .eccFin t := ⟨habs.phase, hcount⟩
  have hinv' : (operation .eccFin t).Inv := habs.inv.after_operation (.inl habs.ready.2) hfin
  have hready' : (operation .eccFin t).ready := habs.ready
  have hchk : testsPass .eccChk (operation .eccFin t) :=
    ⟨rfl, fun p _ hp => (hinv'.corrector.finished (.inl rfl)).2 p (by rwa [Nat.zero_add] at hp)⟩
  refine ⟨operation .eccChk (operation .eccFin t), ?_, ?_⟩
  · rw [List.cons_append, execList_cons (hr.exec_ok (i := .eccStart) trivial), execList_append ht,
      execList_cons (habs.ready.exec_ok hfin), execList_cons (hready'.exec_ok hchk), execList]
  · show t.rsp ++ [BitVec.ofNat 32 ((operation .eccFin t).residue.all (· == 0)).toNat] = s.rsp ++ [1#32]
    rw [hrsp, habs.residue_eccFin hcount]
    simp

end Sys2Proof.Machine
end

section
/-! The codeword memory's commands `CW.WR` and `CW.RD` (R150, R151). -/

namespace Sys2Proof.Machine

/-- Settles O38: the codeword is tested first, then the index, and an operation that writes the entry and its valid bit at
one index. -/
theorem cwWrWritesOneEntry : Obligations.CwWrWritesOneEntry := by
  refine ⟨fun s idx cw hr => ⟨fun hcw hidx => ?_, fun hcw => ?_, fun hcw hidx => ?_⟩, fun _ _ => rfl⟩
  · refine ⟨_, hr.exec_ok (i := .cwWr idx cw) ⟨hcw, hidx⟩, rfl, ?_, ?_, fun p hp => ⟨?_, ?_⟩⟩
    · have hread : (operation (.cwWr idx cw) s).cwAt idx = toCodeword cw := Memory.read_write_same s.cw idx _
      rw [hread, toCodeword_val_of_le hcw]
    · exact Memory.read_write_same s.cwv idx true
    · exact Memory.read_write_other s.cw _ hp
    · exact Memory.read_write_other s.cwv true hp
  · exact hr.exec_error (needCodeword_neg (Nat.not_le.2 hcw))
  · exact hr.exec_error ((needCodeword_pos hcw).trans (needIndex_neg (Nat.not_lt.2 hidx)))

/-- Settles O39: the index is tested first, then the entry's valid bit, and an operation that appends the entry. -/
theorem cwRdRespondsAValidEntry : Obligations.CwRdRespondsAValidEntry := by
  refine ⟨fun s idx hr => ⟨fun hidx hv => ?_, fun hidx => ?_, fun hidx hv => ?_⟩, fun _ => rfl⟩
  · exact hr.exec_ok (i := .cwRd idx) ⟨hidx, hv⟩
  · exact hr.exec_error (needIndex_neg (Nat.not_lt.2 hidx))
  · exact hr.exec_error ((needIndex_pos hidx).trans (need_neg (Bool.eq_false_iff.1 hv)))

end Sys2Proof.Machine
end

section
/-! SUPPORT. A command answers what its own rule answers, so two commands with one rule are treated once; the bit tests and
bit writes of the two packed buffers, and the bulk write by storage words (R62, R160, R169). -/

namespace Sys2Proof.Machine

variable {s t : State} {i : Instr} {n : Nat} {v : Bool} {k : RuleResult}

/-- The command answers the state its own rule answers. -/
theorem State.ready.exec_next_of_ownRule (hr : s.ready) (h : ownRule i s = .ok t) : exec i s = .next t :=
  (exec_eq i s).trans (command_ok hr.1 (.inl hr.2) h)

/-- A one-bit response is the word 1 or 0. -/
theorem State.respondBit_eq (s : State) (b : Bool) :
    s.respondBit b = { s with rsp := s.rsp ++ [if b then 1#32 else 0#32] } := by
  cases b <;> rfl

/-! The two tests of an index into a packed buffer: the valid flag, then the index (R160, R302). -/

theorem needPb_needIndex_neg {cap : Nat} (hv : s.pbValid = true) (hn : cap ≤ n) :
    needPb s (needIndex n cap k) = .error (.indexRange, n) :=
  (needPb_pos hv).trans (needIndex_neg (Nat.not_lt.2 hn))

theorem needGrid_needIndex_neg {cap : Nat} (hg : s.gridValid = true) (hn : cap ≤ n) :
    needGrid s (needIndex n cap k) = .error (.indexRange, n) :=
  (needGrid_pos hg).trans (needIndex_neg (Nat.not_lt.2 hn))

/-! The bit writes. -/

theorem pbPutRule_of_tests (hv : s.pbValid = true) (hn : n < 32) :
    pbPutRule n v s = .ok { s with pb := putBit s.pb n v } :=
  (needPb_pos hv).trans (needIndex_pos hn)

theorem fbPutRule_of_tests (hg : s.gridValid = true) (hn : n < s.geom.gridAW * s.geom.gridH) :
    fbPutRule n v s = .ok (s.putFbBit n v) :=
  (needGrid_pos hg).trans (needIndex_pos hn)

/-- `PB.SETB` and `PB.CLRB` have one rule (R164, R165). -/
theorem ownRule_pbPut (h : (i = .pbSetb n ∧ v = true) ∨ (i = .pbClrb n ∧ v = false)) : ownRule i = pbPutRule n v := by
  obtain ⟨rfl, rfl⟩ | ⟨rfl, rfl⟩ := h <;> rfl

/-- `FB.SETB` and `FB.CLRB` have one rule (R172, R173). -/
theorem ownRule_fbPut (h : (i = .fbSetb n ∧ v = true) ∨ (i = .fbClrb n ∧ v = false)) : ownRule i = fbPutRule n v := by
  obtain ⟨rfl, rfl⟩ | ⟨rfl, rfl⟩ := h <;> rfl

/-! The mask of `PB.ANDI`. -/

/-- A 32-bit word has no bit above the 32 that the conversion of the mask keeps. -/
theorem getLsbD_and_ofNat (x : Word) (mask j : Nat) :
    (x &&& BitVec.ofNat 32 mask).getLsbD j = (x.getLsbD j && mask.testBit j) := by
  rw [BitVec.getLsbD_and, BitVec.getLsbD_ofNat]
  by_cases hj : j < 32
  · simp [hj]
  · simp [BitVec.getLsbD_of_ge x j (Nat.not_lt.1 hj)]

/-! The bulk write. -/

/-- The four lanes of a storage word are written together or not at all (R64, R169). -/
theorem fbWord_fbFillWords (fb : Memory Byte) (used : Nat) (lane : Byte) (w : Nat) :
    fbWord (fbFillWords fb used lane) w = if w < used then lane ++ lane ++ lane ++ lane else fbWord fb w := by
  have hlane (l : Nat) (hl : l < 4) : (fbFillWords fb used lane).read 0#8 (4 * w + l) =
      if w < used then lane else fb.read 0#8 (4 * w + l) := by
    have hiff : 4 * w + l < 4 * used ↔ w < used := by omega
    rw [fbFillWords, Memory.read_fill]
    simp only [hiff]
  have h0 := hlane 0 (by decide)
  rw [Nat.add_zero] at h0
  rw [fbWord, h0, hlane 1 (by decide), hlane 2 (by decide), hlane 3 (by decide)]
  split <;> rfl

end Sys2Proof.Machine
end

section
/-! The packed bit buffers' commands `PB.*` and `FB.*`, and `GRID.INIT` (R161 to R174, R190). -/

namespace Sys2Proof.Machine

/-- Settles O41: neither command makes a test, and each writes the whole word. -/
theorem pbClrAndFillWriteTheWholeWord : Obligations.PbClrAndFillWriteTheWholeWord :=
  ⟨fun _ hr => ⟨hr.exec_ok (i := .pbClr) trivial, hr.exec_ok (i := .pbFill) trivial⟩, by decide, by decide⟩

/-- Settles O42: the two commands have one rule, which tests `PB_VALID`, then the index, and writes one bit. -/
theorem pbSetbAndClrbWriteOneBit : Obligations.PbSetbAndClrbWriteOneBit := by
  refine ⟨fun s n c v hr hc => ?_, fun _ => rfl, fun _ => rfl⟩
  have hrule := congrFun (ownRule_pbPut hc) s
  refine ⟨fun hv hn => ?_, fun hv => ?_, fun hv hn => ?_⟩
  · exact ⟨_, hr.exec_next_of_ownRule (hrule.trans (pbPutRule_of_tests hv hn)), rfl, getLsbD_putBit s.pb v hn⟩
  · exact hr.exec_error (hrule.trans (needPb_neg hv))
  · exact hr.exec_error (hrule.trans (needPb_needIndex_neg hv hn))

/-- Settles O43: the one test, and an operation that keeps the mask's bits, of which a 24-bit mask has none above 23. -/
theorem pbAndiKeepsTheMaskedBits : Obligations.PbAndiKeepsTheMaskedBits := by
  refine ⟨fun s mask hr hmask => ⟨fun hv => ?_, fun hv => ?_⟩, fun _ => rfl⟩
  · have hkept (j : Nat) : (operation (.pbAndi mask) s).pb.getLsbD j = (s.pb.getLsbD j && mask.testBit j) :=
      getLsbD_and_ofNat s.pb mask j
    refine ⟨_, hr.exec_ok (i := .pbAndi mask) hv, rfl, hkept, fun j hj => ?_⟩
    have hclear : mask.testBit j = false :=
      Nat.testBit_lt_two_pow (Nat.lt_of_lt_of_le hmask (Nat.pow_le_pow_right (by decide) hj))
    rw [hkept, hclear, Bool.and_false]
  · exact hr.exec_error (needPb_neg hv)

/-- Settles O44: both commands test `PB_VALID`, then their index, and respond the bit or the byte of R64. -/
theorem pbGetbAndByteRespondStoredBits : Obligations.PbGetbAndByteRespondStoredBits := by
  refine ⟨fun s n hr => ⟨fun hv hn => ?_, fun hv => ?_, fun hv hn => ?_, fun hv hn => ?_, fun hv => ?_,
    fun hv hn => ?_⟩, fun _ => rfl, fun _ => rfl⟩
  · rw [← s.respondBit_eq]
    exact hr.exec_ok (i := .pbGetb n) ⟨hv, hn⟩
  · exact hr.exec_error (needPb_neg hv)
  · exact hr.exec_error (needPb_needIndex_neg hv hn)
  · exact ⟨_, hr.exec_ok (i := .pbByte n) ⟨hv, hn⟩, testBit_extractByte s.pb.getLsbD n⟩
  · exact hr.exec_error (needPb_neg hv)
  · exact hr.exec_error (needPb_needIndex_neg hv hn)

/-- Settles O45: `FB.CLR` and `FB.FILL` test `GRID_VALID`, `GRID.INIT` nothing; each writes the lanes of the allocated
words. -/
theorem bulkWritesCoverTheAllocatedWords : Obligations.BulkWritesCoverTheAllocatedWords := by
  refine ⟨fun s hr => ⟨fun hg => ?_, fun hg => ?_, fun hg => ⟨?_, ?_⟩, ?_⟩, by decide, by decide, by decide⟩
  · exact ⟨_, hr.exec_ok (i := .fbClr) hg, rfl, fbWord_fbFillWords s.fb s.geom.fbUsed 0x00#8⟩
  · exact ⟨_, hr.exec_ok (i := .fbFill) hg, rfl, fbWord_fbFillWords s.fb s.geom.fbUsed 0xFF#8⟩
  · exact hr.exec_error (i := .fbClr) (needGrid_neg hg)
  · exact hr.exec_error (i := .fbFill) (needGrid_neg hg)
  · exact ⟨_, hr.exec_ok (i := .gridInit) trivial, rfl, fbWord_fbFillWords s.fb s.geom.fbUsed 0x00#8⟩

/-- Settles O46: the two commands have one rule, which tests `GRID_VALID`, then the index, and writes one bit. -/
theorem fbSetbAndClrbWriteOneBit : Obligations.FbSetbAndClrbWriteOneBit := by
  refine ⟨fun s n c v hr hc => ?_, fun _ => rfl, fun _ => rfl⟩
  have hrule := congrFun (ownRule_fbPut hc) s
  refine ⟨fun hg hn => ?_, fun hg => ?_, fun hg hn => ?_⟩
  · exact ⟨_, hr.exec_next_of_ownRule (hrule.trans (fbPutRule_of_tests hg hn)), rfl, fbBit_fbSetBit s.fb n v⟩
  · exact hr.exec_error (hrule.trans (needGrid_neg hg))
  · exact hr.exec_error (hrule.trans (needGrid_needIndex_neg hg hn))

/-- Settles O47: both commands test `GRID_VALID`, then their index, and respond the bit or the byte of R64. -/
theorem fbGetbAndByteRespondStoredBits : Obligations.FbGetbAndByteRespondStoredBits := by
  refine ⟨fun s n hr => ⟨fun hg hn => ?_, fun hg => ⟨?_, ?_⟩, fun hg hn => ?_, fun hg hn => ?_, fun hg hn => ?_⟩,
    fun _ => rfl, fun _ => rfl⟩
  · rw [← s.respondBit_eq]
    exact hr.exec_ok (i := .fbGetb n) ⟨hg, hn⟩
  · exact hr.exec_error (needGrid_neg hg)
  · exact hr.exec_error (needGrid_neg hg)
  · exact hr.exec_error (needGrid_needIndex_neg hg hn)
  · exact ⟨_, hr.exec_ok (i := .fbByte n) ⟨hg, hn⟩, testBit_extractByte (fbBit s.fb) n⟩
  · exact hr.exec_error (needGrid_needIndex_neg hg hn)

end Sys2Proof.Machine
end

section
/-! SUPPORT. The pixel commands' three tests (R191), and the place of a raw byte in the frame memory (R31, R67). -/

namespace Sys2Proof.Machine

variable {s : State} {i : Instr} {x y b : Nat} {v : Bool} {k : RuleResult}

/-! The three tests of a pixel, in order (R191). -/

theorem needPixel_pos (hg : s.gridValid = true) (hx : x < s.geom.gridW) (hy : y < s.geom.gridH) :
    needPixel s x y k = k :=
  (needGrid_pos hg).trans ((needIndex_pos hx).trans (needIndex_pos hy))

theorem needPixel_neg_grid (hg : s.gridValid = false) : needPixel s x y k = .error (.sequence, 3) :=
  needGrid_neg hg

theorem needPixel_neg_x (hg : s.gridValid = true) (hx : s.geom.gridW ≤ x) :
    needPixel s x y k = .error (.indexRange, x) :=
  needGrid_needIndex_neg hg hx

theorem needPixel_neg_y (hg : s.gridValid = true) (hx : x < s.geom.gridW) (hy : s.geom.gridH ≤ y) :
    needPixel s x y k = .error (.indexRange, y) :=
  (needGrid_pos hg).trans ((needIndex_pos hx).trans (needIndex_neg (Nat.not_lt.2 hy)))

/-- `PX.SET` and `PX.CLR` have one rule (R191, R192). -/
theorem ownRule_pxPut (h : (i = .pxSet x y ∧ v = true) ∨ (i = .pxClr x y ∧ v = false)) (s : State) :
    ownRule i s = needPixel s x y (.ok (s.putFbBit (s.pixelBit x y) v)) := by
  obtain ⟨rfl, rfl⟩ | ⟨rfl, rfl⟩ := h <;> rfl

/-! The raw stream (R67). -/

/-- The aligned width is a whole number of bytes (R31). -/
theorem Snapshot.eight_mul_gridAW_div (S : Snapshot) : 8 * (S.gridAW / 8) = S.gridAW := by
  simp only [Snapshot.gridAW, Nat.shiftLeft_eq]
  omega

/-- The stream has the pixel rows bottom first, and the bytes of a row left to right (R67). -/
theorem State.rawByteIndex_row (hy : y < s.geom.gridH) (hb : b < s.geom.gridAW / 8) :
    s.rawByteIndex ((s.geom.gridH - 1 - y) * (s.geom.gridAW / 8) + b) = y * (s.geom.gridAW / 8) + b := by
  have hrow : s.geom.gridH - 1 - (s.geom.gridH - 1 - y) = y := by omega
  rw [State.rawByteIndex, Nat.mul_comm (s.geom.gridH - 1 - y), Nat.mul_add_div (by omega), Nat.mul_add_mod,
    Nat.div_eq_of_lt hb, Nat.mod_eq_of_lt hb, Nat.add_zero, hrow]

/-- In a sound session the bits of a raw byte are eight neighbouring pixels of its row (R65, R67). -/
theorem State.SessionOk.rawByteIndex_pixelBit (hs : s.SessionOk) (ho : s.session = true) (hy : y < s.geom.gridH)
    (hb : 8 * b < s.geom.gridAW) (t : Nat) :
    8 * s.rawByteIndex ((s.geom.gridH - 1 - y) * (s.geom.gridAW / 8) + b) + t = s.pixelBit (8 * b + t) y := by
  have haw : 8 * (s.geom.gridAW / 8) = s.geom.gridAW := by
    rw [hs.geom ho]
    exact s.snap.eight_mul_gridAW_div
  calc 8 * s.rawByteIndex ((s.geom.gridH - 1 - y) * (s.geom.gridAW / 8) + b) + t
      = 8 * (y * (s.geom.gridAW / 8) + b) + t := by rw [State.rawByteIndex_row hy (by omega)]
    _ = y * (8 * (s.geom.gridAW / 8)) + (8 * b + t) := by ring
    _ = s.pixelBit (8 * b + t) y := by rw [haw, State.pixelBit]

end Sys2Proof.Machine
end

section
/-! The pixel grid's commands `PX.SET`, `PX.CLR`, `PX.GET` and `GRID.RAWB` (R191 to R194). -/

namespace Sys2Proof.Machine

/-- Settles O48: the two commands have one rule, which makes the three tests and writes the pixel's bit. -/
theorem pxSetAndClrWriteOnePixel : Obligations.PxSetAndClrWriteOnePixel := by
  refine ⟨fun s x y c v hr hc => ?_, fun _ _ => rfl, fun _ _ => rfl⟩
  have hrule := ownRule_pxPut hc s
  refine ⟨fun hg hx hy => ?_, fun hg => ?_, fun hg hx => ?_, fun hg hx hy => ?_⟩
  · exact ⟨_, hr.exec_next_of_ownRule (hrule.trans (needPixel_pos hg hx hy)), rfl,
      fbBit_fbSetBit s.fb (s.pixelBit x y) v⟩
  · exact hr.exec_error (hrule.trans (needPixel_neg_grid hg))
  · exact hr.exec_error (hrule.trans (needPixel_neg_x hg hx))
  · exact hr.exec_error (hrule.trans (needPixel_neg_y hg hx hy))

/-- Settles O49: the same three tests, and a response of the pixel's bit. -/
theorem pxGetRespondsThePixel : Obligations.PxGetRespondsThePixel := by
  refine ⟨fun s x y hr => ⟨fun hg hx hy => ?_, fun hg => ?_, fun hg hx => ?_, fun hg hx hy => ?_⟩, fun _ _ => rfl⟩
  · rw [← s.respondBit_eq]
    exact hr.exec_ok (i := .pxGet x y) ⟨hg, hx, hy⟩
  · exact hr.exec_error (needPixel_neg_grid hg)
  · exact hr.exec_error (needPixel_neg_x hg hx)
  · exact hr.exec_error (needPixel_neg_y hg hx hy)

/-- Settles O50: the response is the frame memory's byte at the raw byte's place, whose bits are eight pixels of one
row. -/
theorem rawBytesRunFromTheBottomRow : Obligations.RawBytesRunFromTheBottomRow := by
  refine ⟨fun s r hr => ⟨fun hg hlt => ?_, fun hg => ?_, fun hg hle => ?_⟩, fun _ => rfl⟩
  · obtain ⟨hbyte, hbits⟩ := testBit_extractByte (fbBit s.fb) (s.rawByteIndex r)
    refine ⟨_, hr.exec_ok (i := .gridRawb r) ⟨hg, hlt⟩, hbyte, hbits, ?_⟩
    rintro hinv y b t hy hb ht rfl
    exact (hbits t ht).trans (congrArg (fbBit s.fb) (hinv.session.rawByteIndex_pixelBit hr.2 hy hb t))
  · exact hr.exec_error (needGrid_neg hg)
  · exact hr.exec_error (needGrid_needIndex_neg hg hle)

end Sys2Proof.Machine
end

section
/-! SUPPORT. Pattern loads and row indicators (R210 to R217): what the three loads have in common, and the bounds that make
an indicator an index of the pattern table. -/

namespace Sys2Proof.Machine

variable {s : State} {i : Instr} {p : Pattern} {S : Snapshot} {fbWords row : Nat}

/-- The command's tests pass and its operation loads the pattern (R211 to R213). -/
def State.Loads (s : State) (i : Instr) (p : Pattern) : Prop :=
  testsPass i s ∧ operation i s = s.setPb (loadPattern p)

theorem State.loads_patLd (s : State) {c v : Nat} (hc : c ≤ 2) (hv : v ≤ 928) : s.Loads (.patLd c v) (s.patAt c v) :=
  ⟨⟨hc, hv⟩, rfl⟩

theorem State.loads_patStart (s : State) : s.Loads .patStart s.inst.startPattern := ⟨trivial, rfl⟩

theorem State.loads_patStop (s : State) : s.Loads .patStop s.inst.stopPattern := ⟨trivial, rfl⟩

theorem State.ready.exec_load (hr : s.ready) (h : s.Loads i p) : exec i s = .next (s.setPb (loadPattern p)) :=
  h.2 ▸ hr.exec_ok h.1

/-! The indicators of a legal snapshot (R214, R215). -/

theorem Snapshot.Legal.x1_le (h : S.Legal fbWords) : S.x1 ≤ 29 := by
  have := h.rows
  unfold Snapshot.x1
  omega

theorem Snapshot.Legal.x2_le (h : S.Legal fbWords) : S.x2 ≤ 29 := by
  have := h.level
  unfold Snapshot.x2
  omega

theorem Snapshot.Legal.x3_le (h : S.Legal fbWords) : S.x3 ≤ 29 := by
  have := h.dcols
  unfold Snapshot.x3
  omega

theorem Snapshot.Legal.row_group_le (h : S.Legal fbWords) (hrow : row < S.rows) : row / 3 * 30 ≤ 870 := by
  have := h.rows
  omega

/-- Every row indicator indexes the pattern table (R215). -/
theorem Snapshot.Legal.indicators_le (h : S.Legal fbWords) (hrow : row < S.rows) :
    S.left row ≤ 899 ∧ S.right row ≤ 899 := by
  have hgroup := h.row_group_le hrow
  have hx1 := h.x1_le
  have hx2 := h.x2_le
  have hx3 := h.x3_le
  unfold Snapshot.left Snapshot.right
  exact ⟨by split_ifs <;> omega, by split_ifs <;> omega⟩

end Sys2Proof.Machine
end

section
/-! The pattern loads and the row indicators: `PAT.LD`, `PAT.START`, `PAT.STOP`, `IND.L`, `IND.R` (R210 to R217). -/

namespace Sys2Proof.Machine

/-- Settles O51: each of the three loads writes `PB` with the reversed pattern, after the cluster and codeword tests of
`PAT.LD`. -/
theorem patternLoadsReverseTheModules : Obligations.PatternLoadsReverseTheModules := by
  refine ⟨fun s c v hr => ⟨fun i p hi => ?_, fun hc => ?_, fun hc hv => ?_⟩, fun _ _ => rfl, by decide, by decide⟩
  · have hload : s.Loads i p := by
      obtain ⟨rfl, hc, hv, rfl⟩ | ⟨rfl, rfl⟩ | ⟨rfl, rfl⟩ := hi
      · exact s.loads_patLd hc hv
      · exact s.loads_patStart
      · exact s.loads_patStop
    refine ⟨_, hr.exec_load hload, rfl, fun m hm => ?_, fun m hm => ?_⟩
    · rw [State.setPb_pb, getLsbD_loadPattern, decide_eq_true hm, Bool.true_and]
    · rw [State.setPb_pb, getLsbD_loadPattern, decide_eq_false (Nat.not_lt.2 hm), Bool.false_and]
  · exact hr.exec_error (i := .patLd c v) (need_neg (Nat.not_le.2 hc))
  · exact hr.exec_error (i := .patLd c v) ((need_pos hc).trans (needCodeword_neg (Nat.not_le.2 hv)))

/-- Settles O52: both commands test the row, then respond the formula's branch for `row mod 3`. -/
theorem indicatorsFollowTheFormula : Obligations.IndicatorsFollowTheFormula := by
  refine ⟨fun s row hr => ⟨fun hrow => ?_, fun hrow => ⟨?_, ?_⟩⟩, fun _ => rfl, fun _ => rfl⟩
  · refine ⟨s.snap.left row, s.snap.right row, hr.exec_ok (i := .indL row) hrow, hr.exec_ok (i := .indR row) hrow,
      fun h => ?_, fun h => ?_, fun h => ?_⟩ <;>
    simp [Snapshot.left, Snapshot.right, Snapshot.x1, Snapshot.x2, Snapshot.x3, h]
  · exact hr.exec_error (i := .indL row) (needIndex_neg (Nat.not_lt.2 hrow))
  · exact hr.exec_error (i := .indR row) (needIndex_neg (Nat.not_lt.2 hrow))

/-- Settles O53: a row group is at most 29 and so is each of the three parts R214 adds to 30 times the group. -/
theorem indicatorValuesIndexThePatternTable : Obligations.IndicatorValuesIndexThePatternTable :=
  fun _ _ hinv ho hrow => (hinv.session.legal ho).indicators_le hrow

end Sys2Proof.Machine
end

section
/-! SUPPORT. Drawing in a sound session (R218): the modules of a symbol are disjoint and lie in the symbol area, so a list
of draws leaves in each module's bits the value a table gives the module, and every other bit as it was. -/

namespace Sys2Proof.Machine

variable {s : State} {row m row' m' dx dy x y j : Nat} {L : List (List Nat × Bool)}

/-! Draws on bits. -/

theorem fbBit_draws_outside (fb : Memory Byte) (h : ∀ p ∈ L, j ∉ p.1) : fbBit (draws fb L) j = fbBit fb j := by
  rw [fbBit_draws (v := false) fb fun p hp hj => absurd hj (h p hp)]
  exact if_neg fun ⟨p, hp, hj⟩ => h p hp hj

/-- Two rectangles of the list that share a bit have one value. -/
def ConsistentDraws (L : List (List Nat × Bool)) : Prop := ∀ p ∈ L, ∀ q ∈ L, ∀ j ∈ p.1, j ∈ q.1 → p.2 = q.2

theorem ConsistentDraws.fbBit_draws (h : ConsistentDraws L) (fb : Memory Byte) {p : List Nat × Bool} (hp : p ∈ L)
    (hj : j ∈ p.1) : fbBit (draws fb L) j = p.2 :=
  (Machine.fbBit_draws fb fun q hq hjq => h q hq p hp j hjq hj).trans (if_pos ⟨p, hp, hj⟩)

theorem ConsistentDraws.draws_draws (h : ConsistentDraws L) {fb : Memory Byte} (hfb : fb.wf 0#8) :
    draws (draws fb L) L = draws fb L := by
  refine fb_ext (draws_wf (draws_wf hfb L) L) (draws_wf hfb L) fun j => ?_
  by_cases hhit : ∃ p ∈ L, j ∈ p.1
  · obtain ⟨p, hp, hj⟩ := hhit
    rw [h.fbBit_draws _ hp hj, h.fbBit_draws _ hp hj]
  · exact fbBit_draws_outside _ fun p hp hj => hhit ⟨p, hp, hj⟩

/-! The place of a module. -/

theorem mem_moduleBits_iff :
    j ∈ s.moduleBits row m ↔
      ∃ dx dy, dx < s.snap.modw ∧ dy < s.snap.modw * s.snap.rhm ∧ j = Claims.moduleBit s row m dx dy :=
  mem_moduleBits

theorem moduleBit_mem (hx : dx < s.snap.modw) (hy : dy < s.snap.modw * s.snap.rhm) :
    Claims.moduleBit s row m dx dy ∈ s.moduleBits row m :=
  mem_moduleBits.2 ⟨dx, dy, hx, hy, rfl⟩

/-- Column `x` of pixel row `y` is quiet zone, row slack or above the grid (R31, R193). -/
def State.OutsideSymbol (s : State) (x y : Nat) : Prop :=
  x < s.snap.margin ∨ s.geom.gridW - s.snap.margin ≤ x ∨ y < s.snap.margin ∨ s.geom.gridH - s.snap.margin ≤ y

/-- A quotient and a remainder are determined by the number they make. -/
theorem quotient_remainder_unique {b q q' c c' : Nat} (hc : c < b) (hc' : c' < b) (h : q * b + c = q' * b + c') :
    q = q' ∧ c = c' := by
  have hdiv (q : Nat) {c : Nat} (hc : c < b) : (q * b + c) / b = q := by
    rw [Nat.add_comm, Nat.add_mul_div_right _ _ (Nat.zero_lt_of_lt hc), Nat.div_eq_of_lt hc, Nat.zero_add]
  obtain rfl : q = q' := by rw [← hdiv q hc, h, hdiv q' hc']
  exact ⟨rfl, Nat.add_left_cancel h⟩

section
variable (hs : s.SessionOk) (ho : s.session = true)
include hs ho

theorem State.SessionOk.moduleX_lt (hm : m < s.geom.symCols) (hx : dx < s.snap.modw) :
    s.snap.margin + m * s.snap.modw + dx < s.geom.gridW - s.snap.margin := by
  rw [hs.geom ho] at hm ⊢
  have hcol : (m + 1) * s.snap.modw ≤ s.snap.symCols * s.snap.modw := Nat.mul_le_mul_right _ hm
  rw [Nat.succ_mul] at hcol
  show _ < s.snap.symCols * s.snap.modw + 2 * s.snap.margin - s.snap.margin
  omega

theorem State.SessionOk.moduleY_lt (hrow : row < s.snap.rows) (hy : dy < s.snap.modw * s.snap.rhm) :
    s.snap.margin + row * s.snap.modw * s.snap.rhm + dy < s.geom.gridH - s.snap.margin := by
  rw [hs.geom ho]
  have hband : (row + 1) * (s.snap.modw * s.snap.rhm) ≤ s.snap.rows * (s.snap.modw * s.snap.rhm) :=
    Nat.mul_le_mul_right _ hrow
  rw [Nat.succ_mul, ← Nat.mul_assoc, ← Nat.mul_assoc] at hband
  show _ < s.snap.rows * s.snap.modw * s.snap.rhm + 2 * s.snap.margin - s.snap.margin
  omega

theorem State.SessionOk.gridW_le_gridAW : s.geom.gridW ≤ s.geom.gridAW := by
  rw [hs.geom ho]
  exact s.snap.gridW_le_gridAW

theorem State.SessionOk.fbBits_eq : s.fbBits = 32 * s.geom.fbUsed := by
  rw [State.fbBits, hs.geom ho]
  have := s.snap.gridAW_mul_gridH_mod
  show s.snap.gridAW * s.snap.gridH = 32 * (s.snap.gridAW * s.snap.gridH / 32)
  omega

/-- The pixel of a module's bit is the bit's quotient and remainder by the aligned width (R65). -/
theorem State.SessionOk.pixel_of_moduleBit (hm : m < s.geom.symCols) (hdx : dx < s.snap.modw) (hx : x < s.geom.gridAW)
    (h : y * s.geom.gridAW + x = Claims.moduleBit s row m dx dy) :
    y = s.snap.margin + row * s.snap.modw * s.snap.rhm + dy ∧ x = s.snap.margin + m * s.snap.modw + dx := by
  have hlt := hs.moduleX_lt ho hm hdx
  have hle := hs.gridW_le_gridAW ho
  exact quotient_remainder_unique hx (by omega) h

/-- The modules of a symbol are disjoint (R218). -/
theorem State.SessionOk.module_unique (hm : m < s.geom.symCols) (hm' : m' < s.geom.symCols)
    (hj : j ∈ s.moduleBits row m) (hj' : j ∈ s.moduleBits row' m') : row = row' ∧ m = m' := by
  obtain ⟨dx, dy, hx, hy, rfl⟩ := mem_moduleBits_iff.1 hj
  obtain ⟨dx', dy', hx', hy', h⟩ := mem_moduleBits_iff.1 hj'
  have hlt := hs.moduleX_lt ho hm hx
  have hle := hs.gridW_le_gridAW ho
  obtain ⟨hpy, hpx⟩ := hs.pixel_of_moduleBit ho hm' hx' (by omega) h
  rw [Nat.mul_assoc, Nat.mul_assoc] at hpy
  exact ⟨(quotient_remainder_unique hy hy' (by omega)).1, (quotient_remainder_unique hx hx' (by omega)).1⟩

/-- No module holds a bit outside the symbol area (R31, R218). -/
theorem State.SessionOk.not_mem_moduleBits (hrow : row < s.snap.rows) (hm : m < s.geom.symCols) (hx : x < s.geom.gridAW)
    (hout : s.OutsideSymbol x y) :
    y * s.geom.gridAW + x ∉ s.moduleBits row m := by
  intro hj
  unfold State.OutsideSymbol at hout
  obtain ⟨dx, dy, hdx, hdy, h⟩ := mem_moduleBits_iff.1 hj
  obtain ⟨hpy, hpx⟩ := hs.pixel_of_moduleBit ho hm hdx hx h
  have hlx := hs.moduleX_lt ho hm hdx
  have hly := hs.moduleY_lt ho hrow hdy
  omega

end

/-! Lists of modules. -/

/-- Every rectangle of the list is a module of the symbol, with the value the table gives it. -/
def State.DrawsTable (s : State) (f : Nat → Nat → Bool) (L : List (List Nat × Bool)) : Prop :=
  ∀ p ∈ L, ∃ row m, row < s.snap.rows ∧ m < s.geom.symCols ∧ p = (s.moduleBits row m, f row m)

theorem State.DrawsTable.consistent {f : Nat → Nat → Bool} (h : s.DrawsTable f L) (hs : s.SessionOk)
    (ho : s.session = true) : ConsistentDraws L := by
  intro p hp q hq j hj hj'
  obtain ⟨row, m, -, hm, rfl⟩ := h p hp
  obtain ⟨row', m', -, hm', rfl⟩ := h q hq
  obtain ⟨rfl, rfl⟩ := hs.module_unique ho hm hm' hj hj'
  rfl

theorem State.DrawsTable.fbBit_outside {f : Nat → Nat → Bool} (h : s.DrawsTable f L) (hs : s.SessionOk)
    (ho : s.session = true) (fb : Memory Byte) (hx : x < s.geom.gridAW) (hout : s.OutsideSymbol x y) :
    fbBit (draws fb L) (y * s.geom.gridAW + x) = fbBit fb (y * s.geom.gridAW + x) := by
  refine fbBit_draws_outside fb fun p hp => ?_
  obtain ⟨row, m, hrow, hm, rfl⟩ := h p hp
  exact hs.not_mem_moduleBits ho hrow hm hx hout

end Sys2Proof.Machine
end

section
/-! SUPPORT. The slots of a symbol row (R222): the patterns a render draws, and the commands that load them, follow one table
of five kinds of slot. -/

namespace Sys2Proof.Machine

variable {s : State} {row slot n m : Nat}

/-! The table of a row. -/

/-- What stands in a slot of a row of `n` codewords: start, left indicator, codewords, right indicator, stop (R222). -/
def slotEntry {α : Type} (n : Nat) (start left : α) (data : Nat → α) (right stop : α) (slot : Nat) : α :=
  if slot = 0 then start
  else if slot = 1 then left
  else if slot < n + 2 then data (slot - 2)
  else if slot = n + 2 then right
  else stop

section
variable {α : Type} {start left right stop : α} {data : Nat → α}

theorem slotEntry_data (h : m < n) : slotEntry n start left data right stop (2 + m) = data m := by
  rw [slotEntry, if_neg (by omega), if_neg (by omega), if_pos (by omega), Nat.add_sub_cancel_left]

theorem slotEntry_right : slotEntry n start left data right stop (n + 2) = right := by
  rw [slotEntry, if_neg (by omega), if_neg (by omega), if_neg (by omega), if_pos rfl]

theorem slotEntry_stop : slotEntry n start left data right stop (n + 3) = stop := by
  rw [slotEntry, if_neg (by omega), if_neg (by omega), if_neg (by omega), if_neg (by omega)]

end

theorem range_add_four (n : Nat) : List.range (n + 4) = 0 :: 1 :: (List.range n).map (2 + ·) ++ [n + 2, n + 3] := by
  rw [List.range_succ, List.range_succ, Nat.add_comm n 2, List.range_add, Nat.add_comm 2 n]
  simp [List.range_succ]

theorem map_range_slotEntry {α : Type} (n : Nat) (start left : α) (data : Nat → α) (right stop : α) :
    (List.range (n + 4)).map (slotEntry n start left data right stop) =
      start :: left :: (List.range n).map data ++ [right, stop] := by
  have hdata : (List.range n).map (slotEntry n start left data right stop ∘ (2 + ·)) = (List.range n).map data :=
    List.map_congr_left fun m hm => slotEntry_data (List.mem_range.1 hm)
  rw [range_add_four]
  simp only [List.map_append, List.map_cons, List.map_map, List.map_nil, hdata, slotEntry_right, slotEntry_stop]
  rfl

/-- The pattern of a slot of a row (R222). -/
def State.slotPattern (s : State) (row : Nat) : Nat → Pattern :=
  slotEntry s.snap.dcols s.inst.startPattern (s.patAt (row % 3) (s.snap.left row))
    (fun c => s.patAt (row % 3) (s.cwAt (row * s.snap.dcols + c)).val) (s.patAt (row % 3) (s.snap.right row))
    s.inst.stopPattern

/-- The command that loads the pattern of a slot (R223). -/
def State.slotLoad (s : State) (row : Nat) : Nat → Instr :=
  slotEntry s.snap.dcols .patStart (.patLd (row % 3) (s.snap.left row))
    (fun c => .patLd (row % 3) (s.cwAt (row * s.snap.dcols + c)).val) (.patLd (row % 3) (s.snap.right row)) .patStop

theorem rowPatterns_zipIdx (s : State) (row : Nat) :
    (s.rowPatterns row).zipIdx = (List.range (s.snap.dcols + 4)).map fun slot => (s.slotPattern row slot, slot) := by
  have hpat : s.rowPatterns row = (List.range (s.snap.dcols + 4)).map (s.slotPattern row) :=
    (map_range_slotEntry ..).symm
  rw [hpat]
  exact List.ext_getElem (by simp) fun j _ _ => by simp

/-- A row is drawn slot by slot, then its trailing module (R223). -/
theorem drawRow_eq_slots (s : State) (row : Nat) (fb : Memory Byte) :
    s.drawRow row fb = s.drawModule row (s.geom.symCols - 1) true
      ((List.range (s.snap.dcols + 4)).foldl
        (fun fb slot => s.drawPattern row slot (loadPattern (s.slotPattern row slot)) fb) fb) := by
  rw [State.drawRow, rowPatterns_zipIdx, List.foldl_map]

/-! The modules of a row. -/

theorem rowModule_slot (s : State) (row : Nat) (hslot : slot < s.snap.dcols + 4) (hm : m < 17) :
    Claims.rowModule s row (slot * 17 + m) = (loadPattern (s.slotPattern row slot)).getLsbD m := by
  have hdiv : (slot * 17 + m) / 17 = slot := by omega
  have hmod : (slot * 17 + m) % 17 = m := by omega
  rw [getLsbD_loadPattern, decide_eq_true hm, Bool.true_and, Claims.rowModule, hdiv, hmod, if_neg (Nat.ne_of_lt hslot)]
  rfl

theorem rowModule_last (s : State) (row : Nat) : Claims.rowModule s row ((s.snap.dcols + 4) * 17) = true := by
  have hdiv : (s.snap.dcols + 4) * 17 / 17 = s.snap.dcols + 4 := Nat.mul_div_cancel _ (by decide)
  rw [Claims.rowModule, hdiv, if_pos rfl]

section
variable (hs : s.SessionOk) (ho : s.session = true)
include hs ho

theorem State.SessionOk.symCols_eq : s.geom.symCols = (s.snap.dcols + 4) * 17 + 1 := by
  rw [hs.geom ho]
  rfl

/-- The rectangles of a row are its modules, each with its value by the table of R222. -/
theorem State.SessionOk.mem_rowDraws {p : List Nat × Bool} :
    p ∈ s.rowDraws row ↔ ∃ m, m < s.geom.symCols ∧ p = (s.moduleBits row m, Claims.rowModule s row m) := by
  have hcols := hs.symCols_eq ho
  have hlast : s.geom.symCols - 1 = (s.snap.dcols + 4) * 17 := by omega
  rw [State.rowDraws, rowPatterns_zipIdx, List.mem_append, List.flatMap_map, List.mem_singleton, hlast]
  constructor
  · rintro (hp | rfl)
    · obtain ⟨slot, hslot, hp⟩ := List.mem_flatMap.1 hp
      obtain ⟨m, hm, rfl⟩ := List.mem_map.1 hp
      rw [List.mem_range] at hslot hm
      exact ⟨slot * 17 + m, by omega, by rw [rowModule_slot s row hslot hm]⟩
    · exact ⟨(s.snap.dcols + 4) * 17, by omega, by rw [rowModule_last]⟩
  · rintro ⟨m, hm, rfl⟩
    by_cases hslot : m / 17 < s.snap.dcols + 4
    · have hmod : m % 17 < 17 := Nat.mod_lt m (by decide)
      have hval := rowModule_slot s row hslot hmod
      rw [Nat.div_add_mod'] at hval
      refine .inl (List.mem_flatMap.2 ⟨m / 17, List.mem_range.2 hslot, List.mem_map.2 ⟨m % 17, List.mem_range.2 hmod, ?_⟩⟩)
      rw [Nat.div_add_mod', hval]
    · obtain rfl : m = (s.snap.dcols + 4) * 17 := by omega
      rw [rowModule_last]
      exact .inr rfl

theorem State.SessionOk.drawsTable_rows {rows : List Nat} (hrows : ∀ row ∈ rows, row < s.snap.rows) :
    s.DrawsTable (Claims.rowModule s) (rows.flatMap s.rowDraws) := by
  intro p hp
  obtain ⟨row, hrow, hp⟩ := List.mem_flatMap.1 hp
  obtain ⟨m, hm, rfl⟩ := (hs.mem_rowDraws ho).1 hp
  exact ⟨row, m, hrows row hrow, hm, rfl⟩

/-- Drawing rows leaves in each module of each of them its value by the table of R222. -/
theorem State.SessionOk.fbBit_draws_rows {rows : List Nat} (hrows : ∀ row ∈ rows, row < s.snap.rows) (fb : Memory Byte)
    (hrow : row ∈ rows) (hm : m < s.geom.symCols) {j : Nat} (hj : j ∈ s.moduleBits row m) :
    fbBit (draws fb (rows.flatMap s.rowDraws)) j = Claims.rowModule s row m :=
  ((hs.drawsTable_rows ho hrows).consistent hs ho).fbBit_draws fb
    (List.mem_flatMap.2 ⟨row, hrow, (hs.mem_rowDraws ho).2 ⟨m, hm, rfl⟩⟩) hj

theorem State.SessionOk.drawsTable_pattern (hrow : row < s.snap.rows) (hslot : slot < s.snap.dcols + 4) (pb : Word) :
    s.DrawsTable (fun _ m => pb.getLsbD (m % 17)) (s.patternDraws row slot pb) := by
  have hcols := hs.symCols_eq ho
  intro p hp
  obtain ⟨m, hm, rfl⟩ := List.mem_map.1 hp
  have hm := List.mem_range.1 hm
  have hmod : (slot * 17 + m) % 17 = m := by omega
  exact ⟨row, slot * 17 + m, hrow, by omega, by simp only [hmod]⟩

end

theorem State.drawsTable_module (hrow : row < s.snap.rows) (hm : m < s.geom.symCols) (v : Bool) :
    s.DrawsTable (fun _ _ => v) [(s.moduleBits row m, v)] := by
  intro p hp
  exact ⟨row, m, hrow, hm, List.mem_singleton.1 hp⟩

end Sys2Proof.Machine
end

section
/-! SUPPORT. The drawing commands (R219 to R224): their tests in order, the draws each leaves in the frame memory, and runs
of them, which change the frame memory and the pattern buffer only. -/

namespace Sys2Proof.Machine

variable {s : State} {i : Instr} {k : RuleResult} {row slot m n lo : Nat} {v : Bool}

/-! The tests. -/

theorem needModule_pos (hg : s.gridValid = true) (hrow : row < s.snap.rows) (hm : m < s.geom.symCols) :
    needModule s row m k = k :=
  (needGrid_pos hg).trans ((needIndex_pos hrow).trans (needIndex_pos hm))

theorem needModule_neg_grid (hg : s.gridValid = false) : needModule s row m k = .error (.sequence, 3) :=
  needGrid_neg hg

theorem needModule_neg_row (hg : s.gridValid = true) (hrow : s.snap.rows ≤ row) :
    needModule s row m k = .error (.indexRange, row) :=
  needGrid_needIndex_neg hg hrow

theorem needModule_neg_module (hg : s.gridValid = true) (hrow : row < s.snap.rows) (hm : s.geom.symCols ≤ m) :
    needModule s row m k = .error (.indexRange, m) :=
  (needGrid_pos hg).trans ((needIndex_pos hrow).trans (needIndex_neg (Nat.not_lt.2 hm)))

/-- `DRAW.BAR` and `DRAW.SPC` have one rule (R219, R220). -/
theorem ownRule_drawModule (h : (i = .drawBar row m ∧ v = true) ∨ (i = .drawSpc row m ∧ v = false)) (s : State) :
    ownRule i s = needModule s row m (.ok { s with fb := s.drawModule row m v s.fb }) := by
  obtain ⟨rfl, rfl⟩ | ⟨rfl, rfl⟩ := h <;> rfl

theorem State.allValid_of_add (h : ∀ c, c < n → s.cwValid (lo + c) = true) : s.AllValid lo n := by
  intro p hlo hp
  obtain ⟨c, rfl⟩ := Nat.exists_eq_add_of_le hlo
  exact h c (by omega)

theorem State.allValid_zero (h : ∀ p, p < n → s.cwValid p = true) : s.AllValid 0 n :=
  State.allValid_of_add fun c hc => by rw [Nat.zero_add]; exact h c hc

/-! The draws. -/

theorem operation_renderRow_fb (s : State) (row : Nat) :
    (operation (.renderRow row) s).fb = draws s.fb ([row].flatMap s.rowDraws) :=
  drawRows_eq s [row] s.fb

theorem operation_render_fb (s : State) :
    (operation .render s).fb = draws s.fb ((List.range s.snap.rows).flatMap s.rowDraws) :=
  drawRows_eq s (List.range s.snap.rows) s.fb

theorem operation_drawPb_fb (s : State) (row slot : Nat) :
    (operation (.drawPb row slot) s).fb = draws s.fb (s.patternDraws row slot s.pb) :=
  drawPattern_eq s row slot s.pb s.fb

/-- A completed drawing command draws modules of the symbol, each with one value (R218 to R224). -/
theorem State.SessionOk.operation_draws (hs : s.SessionOk) (ho : s.session = true)
    (hi : (∃ r m, i = .drawBar r m) ∨ (∃ r m, i = .drawSpc r m) ∨ (∃ r slot, i = .drawPb r slot) ∨
      (∃ r, i = .renderRow r) ∨ i = .render)
    (hp : testsPass i s) : ∃ f L, s.DrawsTable f L ∧ (operation i s).fb = draws s.fb L := by
  obtain ⟨row, m, rfl⟩ | ⟨row, m, rfl⟩ | ⟨row, slot, rfl⟩ | ⟨row, rfl⟩ | rfl := hi
  · obtain ⟨-, hrow, hm⟩ := hp
    exact ⟨_, _, State.drawsTable_module hrow hm true, rfl⟩
  · obtain ⟨-, hrow, hm⟩ := hp
    exact ⟨_, _, State.drawsTable_module hrow hm false, rfl⟩
  · obtain ⟨-, -, hrow, hslot⟩ := hp
    exact ⟨_, _, hs.drawsTable_pattern ho hrow hslot s.pb, operation_drawPb_fb s row slot⟩
  · obtain ⟨-, hrow, -⟩ := hp
    exact ⟨_, _, hs.drawsTable_rows ho (List.forall_mem_singleton.2 hrow), operation_renderRow_fb s row⟩
  · exact ⟨_, _, hs.drawsTable_rows ho fun _ => List.mem_range.1, operation_render_fb s⟩

/-! Runs of drawing commands. -/

/-- `s` with another frame memory and another pattern buffer: all that pattern loads and draws write. -/
def State.withDrawing (s : State) (fb : Memory Byte) (pb : Word) (v : Bool) : State :=
  { s with fb := fb, pb := pb, pbValid := v }

theorem State.withDrawing_self (s : State) : s.withDrawing s.fb s.pb s.pbValid = s := rfl

/-- The commands that draw one slot of a row (R223). -/
def State.slotCommands (s : State) (row slot : Nat) : List Instr := [s.slotLoad row slot, .drawPb row slot]

/-- The frame memory after the first `n` slots of a row (R223). -/
def State.drawSlots (s : State) (row n : Nat) (fb : Memory Byte) : Memory Byte :=
  (List.range n).foldl (fun fb slot => s.drawPattern row slot (loadPattern (s.slotPattern row slot)) fb) fb

theorem State.drawSlots_succ (s : State) (row n : Nat) (fb : Memory Byte) :
    s.drawSlots row (n + 1) fb =
      s.drawPattern row n (loadPattern (s.slotPattern row n)) (s.drawSlots row n fb) := by
  simp only [State.drawSlots, List.range_succ, List.foldl_append, List.foldl_cons, List.foldl_nil]

section
variable (hs : s.SessionOk) (hr : s.ready) (hrow : row < s.snap.rows)
include hs hr hrow

/-- The command of a slot loads the slot's pattern: a codeword and an indicator both index the pattern table (R215). -/
theorem State.SessionOk.slotLoad_loads (slot : Nat) (fb : Memory Byte) (pb : Word) (v : Bool) :
    (s.withDrawing fb pb v).Loads (s.slotLoad row slot) (s.slotPattern row slot) := by
  have hc : row % 3 ≤ 2 := Nat.le_of_lt_succ (Nat.mod_lt row (by decide))
  have hlegal := hs.legal hr.2
  unfold State.slotLoad State.slotPattern slotEntry
  split_ifs
  · exact (s.withDrawing fb pb v).loads_patStart
  · exact (s.withDrawing fb pb v).loads_patLd hc (Nat.le_trans (hlegal.indicators_le hrow).1 (by decide))
  · exact (s.withDrawing fb pb v).loads_patLd hc (Nat.le_of_lt_succ (Fin.isLt _))
  · exact (s.withDrawing fb pb v).loads_patLd hc (Nat.le_trans (hlegal.indicators_le hrow).2 (by decide))
  · exact (s.withDrawing fb pb v).loads_patStop

variable (hg : s.gridValid = true)
include hg

theorem State.SessionOk.execList_slotCommands (hslot : slot < s.snap.dcols + 4) (fb : Memory Byte) (pb : Word)
    (v : Bool) :
    execList (s.slotCommands row slot) (s.withDrawing fb pb v) =
      .next (s.withDrawing (s.drawPattern row slot (loadPattern (s.slotPattern row slot)) fb)
        (loadPattern (s.slotPattern row slot)) true) := by
  have hready : (s.withDrawing fb pb v).ready := hr
  have hready' : ((s.withDrawing fb pb v).setPb (loadPattern (s.slotPattern row slot))).ready := hr
  have hp : testsPass (.drawPb row slot) ((s.withDrawing fb pb v).setPb (loadPattern (s.slotPattern row slot))) :=
    ⟨hg, rfl, hrow, hslot⟩
  rw [State.slotCommands, execList_cons (hready.exec_load (hs.slotLoad_loads hr hrow slot fb pb v)),
    execList_cons (hready'.exec_ok hp)]
  rfl

/-- The commands of the first slots of a row draw these slots and leave the last pattern in `PB`. -/
theorem State.SessionOk.execList_slots (hn : n < s.snap.dcols + 4) :
    execList ((List.range (n + 1)).flatMap (s.slotCommands row)) s =
      .next (s.withDrawing (s.drawSlots row (n + 1) s.fb) (loadPattern (s.slotPattern row n)) true) := by
  induction n with
  | zero =>
    have h := hs.execList_slotCommands hr hrow hg hn s.fb s.pb s.pbValid
    rw [s.withDrawing_self] at h
    rw [List.range_one, List.flatMap_singleton, h, s.drawSlots_succ]
    rfl
  | succ n ih =>
    rw [List.range_succ, List.flatMap_append, List.flatMap_singleton, execList_append (ih (by omega)),
      hs.execList_slotCommands hr hrow hg hn, ← s.drawSlots_succ]

end

/-- The commands whose sequence a render of a row equals (R223). -/
def State.rowCommands (s : State) (row : Nat) : List Instr :=
  [Instr.patStart, .drawPb row 0, .patLd (row % 3) (s.snap.left row), .drawPb row 1] ++
    ((List.range s.snap.dcols).flatMap fun c =>
      [Instr.patLd (row % 3) (s.cwAt (row * s.snap.dcols + c)).val, .drawPb row (2 + c)]) ++
    [Instr.patLd (row % 3) (s.snap.right row), .drawPb row (s.snap.dcols + 2), .patStop, .drawPb row (s.snap.dcols + 3),
      .drawBar row (s.geom.symCols - 1)]

/-- They are the commands of the row's slots and `DRAW.BAR` of the trailing module. -/
theorem State.rowCommands_eq_slots (s : State) (row : Nat) :
    s.rowCommands row =
      (List.range (s.snap.dcols + 4)).flatMap (s.slotCommands row) ++ [Instr.drawBar row (s.geom.symCols - 1)] := by
  have hdata : ((List.range s.snap.dcols).flatMap fun c => s.slotCommands row (2 + c)) =
      (List.range s.snap.dcols).flatMap fun c =>
        [.patLd (row % 3) (s.cwAt (row * s.snap.dcols + c)).val, .drawPb row (2 + c)] :=
    List.flatMap_congr fun c hc => by
      rw [State.slotCommands, State.slotLoad, slotEntry_data (List.mem_range.1 hc)]
  have hright : s.slotLoad row (s.snap.dcols + 2) = .patLd (row % 3) (s.snap.right row) := slotEntry_right
  have hstop : s.slotLoad row (s.snap.dcols + 3) = .patStop := slotEntry_stop
  rw [State.rowCommands, range_add_four]
  simp only [List.flatMap_append, List.flatMap_cons, List.flatMap_map, List.flatMap_nil, hdata]
  simp only [State.slotCommands, hright, hstop]
  simp [State.slotLoad, slotEntry]

/-- `RENDER.ROW` of one row after the other draws the rows in order (R224). -/
theorem execList_renderRows {rows : List Nat} (hr : s.ready)
    (hrows : ∀ row ∈ rows, testsPass (.renderRow row) s) (fb : Memory Byte) :
    execList (rows.map .renderRow) (s.rendered fb) =
      .next (s.rendered (rows.foldl (fun fb row => s.drawRow row fb) fb)) := by
  induction rows generalizing fb with
  | nil => rfl
  | cons row rows ih =>
    rw [List.forall_mem_cons] at hrows
    have hready : (s.rendered fb).ready := hr
    rw [List.map_cons, execList_cons (hready.exec_ok (i := .renderRow row) hrows.1)]
    exact ih hrows.2 (s.drawRow row fb)

end Sys2Proof.Machine
end

section
/-! Drawing and rendering: `DRAW.BAR`, `DRAW.SPC`, `DRAW.PB`, `RENDER.ROW` and `RENDER` (R218 to R226). -/

namespace Sys2Proof.Machine

/-- Settles O54: the two commands have one rule, which makes the three tests and writes the bits of one module. -/
theorem drawBarAndSpcWriteOneModule : Obligations.DrawBarAndSpcWriteOneModule := by
  refine ⟨fun s row m c v hr hc => ?_, fun _ _ => rfl, fun _ _ => rfl⟩
  have hrule := ownRule_drawModule hc s
  refine ⟨fun hg hrow hm => ?_, fun hg => ?_, fun hg hrow => ?_, fun hg hrow hm => ?_⟩
  · refine ⟨_, hr.exec_next_of_ownRule (hrule.trans (needModule_pos hg hrow hm)), rfl, fun dx dy hx hy => ?_,
      fun j hj => ?_⟩
    · exact (fbBit_fbSetBits ..).trans (if_pos (moduleBit_mem hx hy))
    · refine (fbBit_fbSetBits ..).trans (if_neg fun hmem => ?_)
      obtain ⟨dx, dy, hx, hy, rfl⟩ := mem_moduleBits_iff.1 hmem
      exact hj dx dy hx hy rfl
  · exact hr.exec_error (hrule.trans (needModule_neg_grid hg))
  · exact hr.exec_error (hrule.trans (needModule_neg_row hg hrow))
  · exact hr.exec_error (hrule.trans (needModule_neg_module hg hrow hm))

/-- Settles O55: a drawing command that completes draws modules only, and a module's columns and rows keep the margin from
the edges of the grid. -/
theorem modulesStayInsideTheSymbolArea : Obligations.ModulesStayInsideTheSymbolArea := by
  refine ⟨fun i s t x y hinv hi h hx hout => ?_, fun s row m dx dy hinv ho hrow hm hdx hdy => ?_⟩
  · obtain ⟨-, -, rfl⟩ | ⟨-, r, -, rfl⟩ | ⟨-, hg, hp, rfl⟩ := exec_cases h
    · rfl
    · rfl
    have hgate : gateOf i = .session := by
      obtain ⟨_, _, rfl⟩ | ⟨_, _, rfl⟩ | ⟨_, _, rfl⟩ | ⟨_, rfl⟩ | rfl := hi <;> rfl
    have ho : s.session = true := hg.resolve_right (· hgate)
    obtain ⟨f, L, htable, hfb⟩ := hinv.session.operation_draws ho hi hp
    rw [hfb]
    exact htable.fbBit_outside hinv.session ho s.fb hx hout
  · have hmem := moduleBit_mem (row := row) (m := m) hdx hdy
    refine ⟨_, _, rfl, ?_, hinv.session.moduleX_lt ho hm hdx, ?_, hinv.session.moduleY_lt ho hrow hdy, ?_⟩
    · omega
    · omega
    · rw [← hinv.session.fbBits_eq ho]
      exact hinv.session.moduleBits_lt ho hrow hm hmem

/-- Settles O56: after the four tests the command draws 17 modules, whose bits are disjoint in a sound session. -/
theorem drawPbDrawsSeventeenModules : Obligations.DrawPbDrawsSeventeenModules := by
  refine ⟨fun s row slot hr => ⟨fun hg hv hrow hslot => ?_, fun hg => ?_, fun hg hv => ?_, fun hg hv hrow => ?_,
    fun hg hv hrow hslot => ?_⟩, fun _ _ => rfl⟩
  · refine ⟨_, hr.exec_ok (i := .drawPb row slot) ⟨hg, hv, hrow, hslot⟩, rfl, fun hinv m dx dy hm hx hy => ?_,
      fun j hj => ?_⟩
    · rw [operation_drawPb_fb]
      have hcons := (hinv.session.drawsTable_pattern hr.2 hrow hslot s.pb).consistent hinv.session hr.2
      exact hcons.fbBit_draws s.fb (List.mem_map_of_mem (List.mem_range.2 hm)) (moduleBit_mem hx hy)
    · rw [operation_drawPb_fb]
      refine fbBit_draws_outside s.fb fun p hp hmem => ?_
      obtain ⟨m, hm, rfl⟩ := List.mem_map.1 hp
      obtain ⟨dx, dy, hx, hy, rfl⟩ := mem_moduleBits_iff.1 hmem
      exact hj m dx dy (List.mem_range.1 hm) hx hy rfl
  · exact hr.exec_error (i := .drawPb row slot) (needGrid_neg hg)
  · exact hr.exec_error (i := .drawPb row slot) ((needGrid_pos hg).trans (needPb_neg hv))
  · exact hr.exec_error (i := .drawPb row slot) ((needGrid_pos hg).trans (needPb_needIndex_neg hv hrow))
  · exact hr.exec_error (i := .drawPb row slot)
      ((needGrid_pos hg).trans ((needPb_pos hv).trans ((needIndex_pos hrow).trans (needIndex_neg (Nat.not_lt.2 hslot)))))

/-- Settles O57: after the three tests the command draws exactly the modules of the row, by the table of R222. -/
theorem renderRowDrawsTheRow : Obligations.RenderRowDrawsTheRow := by
  refine ⟨fun s row hr => ⟨fun hg hrow hv => ?_, fun hg => ?_, fun hg hrow => ?_, fun c hg hrow hc hv hlow => ?_⟩,
    fun _ => rfl⟩
  · refine ⟨_, hr.exec_ok (i := .renderRow row) ⟨hg, hrow, State.allValid_of_add hv⟩, rfl,
      fun m _ => getLsbD_loadPattern s.inst.stopPattern m, fun hinv m dx dy hm hx hy => ?_, fun hinv j hj => ?_⟩
    · rw [operation_renderRow_fb]
      exact hinv.session.fbBit_draws_rows hr.2 (List.forall_mem_singleton.2 hrow) s.fb (List.mem_singleton_self row) hm
        (moduleBit_mem hx hy)
    · rw [operation_renderRow_fb, List.flatMap_singleton]
      refine fbBit_draws_outside s.fb fun p hp hmem => ?_
      obtain ⟨m, hm, rfl⟩ := (hinv.session.mem_rowDraws hr.2).1 hp
      obtain ⟨dx, dy, hx, hy, rfl⟩ := mem_moduleBits_iff.1 hmem
      exact hj m dx dy hm hx hy rfl
  · exact hr.exec_error (i := .renderRow row) (needGrid_neg hg)
  · exact hr.exec_error (i := .renderRow row) (needGrid_needIndex_neg hg hrow)
  · have hlow : ∀ p, row * s.snap.dcols ≤ p → p < row * s.snap.dcols + c → s.cwValid p = true :=
      State.allValid_of_add hlow
    exact hr.exec_error (i := .renderRow row) ((needGrid_pos hg).trans ((needIndex_pos hrow).trans
      (needValid_neg (Nat.le_add_right _ _) (Nat.add_lt_add_left hc _) hv hlow)))

/-- Settles O58: each load and draw of the sequence draws one slot of the row, and a render of the row is its slots in
order and the trailing module. -/
theorem renderRowEqualsItsCommandSequence : Obligations.RenderRowEqualsItsCommandSequence := by
  intro s row hinv hr hg hrow hv
  refine ⟨_, hr.exec_ok (i := .renderRow row) ⟨hg, hrow, State.allValid_of_add hv⟩, ?_⟩
  have hlast : s.geom.symCols - 1 < s.geom.symCols := by
    rw [hinv.session.symCols_eq hr.2]
    exact Nat.lt_succ_self _
  have hslots := hinv.session.execList_slots hr hrow hg (Nat.lt_succ_self (s.snap.dcols + 3))
  have hstop : s.slotPattern row (s.snap.dcols + 3) = s.inst.stopPattern := slotEntry_stop
  rw [hstop] at hslots
  have hbar := State.ready.exec_ok (i := .drawBar row (s.geom.symCols - 1))
    (s := s.withDrawing (s.drawSlots row (s.snap.dcols + 4) s.fb) (loadPattern s.inst.stopPattern) true) hr
    ⟨hg, hrow, hlast⟩
  show execList (s.rowCommands row) s = _
  rw [s.rowCommands_eq_slots, execList_append hslots, execList_cons hbar]
  show Host.Outcome.next _ = .next (s.rendered (s.drawRow row s.fb))
  rw [drawRow_eq_slots]
  rfl

/-- Settles O59: after the two tests the command draws exactly the modules of all rows, by the table of R222. -/
theorem renderDrawsTheSymbol : Obligations.RenderDrawsTheSymbol := by
  refine ⟨fun s hr => ⟨fun hg hv => ?_, fun hg => ?_, fun p hg hp hv hlow => ?_⟩, by decide⟩
  · have hrows : ∀ row ∈ List.range s.snap.rows, row < s.snap.rows := fun _ => List.mem_range.1
    refine ⟨_, hr.exec_ok (i := .render) ⟨hg, State.allValid_zero hv⟩, rfl,
      fun m _ => getLsbD_loadPattern s.inst.stopPattern m, fun hinv row m dx dy hrow hm hx hy => ?_,
      fun hinv x y hx hout => ?_⟩
    · rw [operation_render_fb]
      exact hinv.session.fbBit_draws_rows hr.2 hrows s.fb (List.mem_range.2 hrow) hm (moduleBit_mem hx hy)
    · rw [operation_render_fb]
      exact (hinv.session.drawsTable_rows hr.2 hrows).fbBit_outside hinv.session hr.2 s.fb hx hout
  · exact hr.exec_error (i := .render) (needGrid_neg hg)
  · exact hr.exec_error (i := .render) ((needGrid_pos hg).trans
      (needValid_neg (Nat.zero_le p) (by omega) hv fun q _ hq => hlow q hq))

/-- A row of a symbol whose codewords are all valid can be rendered (R223, R224). -/
theorem testsPass_renderRow_of_render {s : State} {row : Nat} (h : testsPass .render s) (hrow : row < s.snap.rows) :
    testsPass (.renderRow row) s := by
  obtain ⟨hg, hv⟩ := h
  have hlast : (row + 1) * s.snap.dcols ≤ s.snap.rows * s.snap.dcols := Nat.mul_le_mul_right _ hrow
  rw [Nat.succ_mul] at hlast
  exact ⟨hg, hrow, fun p _ hp => hv p (Nat.zero_le p) (by omega)⟩

/-- Settles O60: both draw the rows in order, and every bit a render writes has one value, so a second render writes what
stands there. -/
theorem renderEqualsItsRowsAndIsIdempotent : Obligations.RenderEqualsItsRowsAndIsIdempotent := by
  intro s hinv hr hg hv
  have hp : testsPass .render s := ⟨hg, State.allValid_zero hv⟩
  have hall : ∀ row ∈ List.range s.snap.rows, testsPass (.renderRow row) s :=
    fun row hrow => testsPass_renderRow_of_render hp (List.mem_range.1 hrow)
  refine ⟨_, hr.exec_ok hp, ?_, ?_⟩
  · obtain ⟨row, rows, hrows⟩ : ∃ row rows, List.range s.snap.rows = row :: rows :=
      List.exists_cons_of_length_pos (by rw [List.length_range]; exact (hinv.session.legal hr.2).rows.1)
    rw [hrows, List.forall_mem_cons] at hall
    rw [hrows, List.map_cons, execList_cons (hr.exec_ok hall.1)]
    refine (execList_renderRows hr hall.2 _).trans ?_
    show _ = Host.Outcome.next (s.rendered ((List.range s.snap.rows).foldl _ s.fb))
    rw [hrows]
    rfl
  · have hready : (operation .render s).ready := hr
    have htable := hinv.session.drawsTable_rows hr.2 (rows := List.range s.snap.rows) fun _ => List.mem_range.1
    have hfb : (operation .render (operation .render s)).fb = (operation .render s).fb := by
      have htwice := operation_render_fb (operation .render s)
      rw [operation_render_fb s] at htwice
      rw [operation_render_fb s]
      exact htwice.trans ((htable.consistent hinv.session hr.2).draws_draws hinv.memories.fb.1)
    refine (hready.exec_ok (i := .render) hp).trans (congrArg Host.Outcome.next ?_)
    exact congrArg s.rendered hfb

end Sys2Proof.Machine
end

section
/-! Exceptions and reset: what a fault leaves unchanged (R292), the idle step (R304), and hardware reset as `SRESET`
(R321). -/

namespace Sys2Proof.Machine

variable {s : State}

/-- No completed command sets `FAULTED` (R292). -/
theorem operation_faulted_of_unfaulted (i : Instr) (hf : s.faulted = false) : (operation i s).faulted = false := by
  by_cases hi : i = .sreset
  · rw [hi]; rfl
  · exact (operation_faultRecord s hi).1.trans hf

/-- Settles O12: of the three ways a command ends, an unfaulted block drops nothing and a completed command leaves it
unfaulted, so the command took a fault, which is an update of the four fields. -/
theorem faultsArePrecise : Obligations.FaultsArePrecise := by
  intro i s t hf h ht
  obtain ⟨hf', -, -⟩ | ⟨-, r, hr, rfl⟩ | ⟨-, -, -, rfl⟩ := exec_cases h
  · rw [hf] at hf'; nomatch hf'
  · exact ⟨r.1, r.2, hr, rfl⟩
  · rw [operation_faulted_of_unfaulted i hf] at ht; nomatch ht

theorem step_of_nothing_presented (h : s.port = []) : step s = .next s := by
  unfold step State.takeInput
  rw [h]

theorem step_hardwareReset (s : State) :
    step { s with port := .hardwareReset :: s.port } = .next s.resetNow := rfl

/-- The word of `SRESET` resets in every state, faulted or not (R104, R105). -/
theorem step_present_sreset (s : State) : step (s.present 0x04000000#32) = .next s.resetNow := by
  have hdecode : decode 0x04000000#32 = .ok .sreset := by decide
  rw [step_present, runWord_of_decode hdecode]
  exact exec_always rfl rfl

/-- Settles O7: the idle step holds the state, and both resets leave `resetNow`, which keeps the responses and the
parameters. -/
theorem idleHoldsAndHardwareResetIsSreset : Obligations.IdleHoldsAndHardwareResetIsSreset := by
  refine ⟨fun s => step_of_nothing_presented, fun s => ?_, fun s t h => ?_⟩
  · rw [step_hardwareReset, step_present_sreset]
  · rw [step_hardwareReset] at h
    cases h
    exact ⟨rfl, rfl⟩

end Sys2Proof.Machine
end

section
/-! SUPPORT. Two states that differ at most in contents nothing in the session wrote (R323) give every read the block
makes in an open session the same value: accumulator slots in use, valid codewords, a valid pattern buffer, allocated
frame bits. So each command's tests answer the same, and its operation keeps the two states alike. -/

namespace Sys2Proof.Machine

variable {s t : State} {i : Instr}

/-! The contents a memory operation leaves, cell by cell. -/

theorem fbBit_fbSetBit_congr {fb fb' : Memory Byte} {j : Nat} (h : fbBit fb' j = fbBit fb j) (n : Nat) (b : Bool) :
    fbBit (fbSetBit fb' n b) j = fbBit (fbSetBit fb n b) j := by
  rw [fbBit_fbSetBit, fbBit_fbSetBit, h]

theorem fbBit_fbSetBits_congr {fb fb' : Memory Byte} {j : Nat} (h : fbBit fb' j = fbBit fb j) (is : List Nat)
    (b : Bool) : fbBit (fbSetBits fb' is b) j = fbBit (fbSetBits fb is b) j := by
  rw [fbBit_fbSetBits, fbBit_fbSetBits, h]

theorem fbBit_fbFillWords_congr {fb fb' : Memory Byte} {j : Nat} (h : fbBit fb' j = fbBit fb j) (used : Nat)
    (lane : Byte) : fbBit (fbFillWords fb' used lane) j = fbBit (fbFillWords fb used lane) j := by
  rw [fbBit_fbFillWords, fbBit_fbFillWords, h]

theorem fbBit_draws_congr {fb fb' : Memory Byte} {j : Nat} (h : fbBit fb' j = fbBit fb j)
    (L : List (List Nat × Bool)) : fbBit (draws fb' L) j = fbBit (draws fb L) j := by
  induction L generalizing fb fb' with
  | nil => exact h
  | cons p L ih => exact ih (fbBit_fbSetBits_congr h p.1 p.2)

/-- A raw byte of the stream is a byte of the allocated frame words (R67, R194). -/
theorem State.SessionOk.rawByteIndex_lt (hs : s.SessionOk) (ho : s.session = true) {n : Nat}
    (hn : n < s.geom.gridH * s.geom.gridAW / 8) : s.rawByteIndex n < s.fbBits / 8 := by
  have haw : 8 * (s.geom.gridAW / 8) = s.geom.gridAW := by
    rw [hs.geom ho]
    exact s.snap.eight_mul_gridAW_div
  rw [State.rawByteIndex, State.fbBits]
  generalize s.geom.gridAW / 8 = b at *
  rw [← haw] at hn ⊢
  rw [Nat.mul_left_comm, Nat.mul_div_cancel_left _ (by decide)] at hn
  rw [Nat.mul_assoc, Nat.mul_div_cancel_left _ (by decide)]
  have hb : 0 < b := Nat.pos_of_ne_zero fun h => by simp [h] at hn
  have hh : 0 < s.geom.gridH := Nat.pos_of_ne_zero fun h => by simp [h] at hn
  have hrow : s.geom.gridH - 1 - n / b < s.geom.gridH :=
    Nat.lt_of_le_of_lt (Nat.sub_le _ _) (Nat.sub_lt hh (by decide))
  calc (s.geom.gridH - 1 - n / b) * b + n % b
      < (s.geom.gridH - 1 - n / b) * b + b := Nat.add_lt_add_left (Nat.mod_lt n hb) _
    _ = (s.geom.gridH - 1 - n / b + 1) * b := (Nat.succ_mul _ _).symm
    _ ≤ s.geom.gridH * b := Nat.mul_le_mul_right b hrow
    _ = b * s.geom.gridH := Nat.mul_comm _ _

/-! What alike states agree on. -/

theorem State.Alike.refl (s : State) : s.Alike s :=
  ⟨rfl, fun _ _ _ => rfl, fun _ _ => rfl, fun _ => rfl, fun _ _ _ => rfl⟩

theorem State.Alike.exists_contents (h : s.Alike t) :
    ∃ acc cw pb fb, t = { s with acc := acc, cw := cw, pb := pb, fb := fb } := ⟨_, _, _, _, h.rest⟩

section
variable (h : s.Alike t)
include h

theorem State.Alike.snap_eq : t.snap = s.snap := by rw [h.rest]

theorem State.Alike.geom_eq : t.geom = s.geom := by rw [h.rest]

theorem State.Alike.eccCount_eq : t.eccCount = s.eccCount := by rw [h.rest]

theorem State.Alike.cwv_eq : t.cwv = s.cwv := by rw [h.rest]

theorem State.Alike.rsp_eq : t.rsp = s.rsp := by rw [h.rest]

theorem State.Alike.coeffs_eq : t.coeffs = s.coeffs := by
  obtain ⟨_, _, _, _, rfl⟩ := h.exists_contents
  rfl

theorem State.Alike.accSlots_eq (hp : s.eccPhase ≠ .idle) : t.accSlots = s.accSlots := by
  rw [State.accSlots, State.accSlots, h.snap_eq]
  exact List.map_congr_left fun j hj => h.acc hp j (List.mem_range.1 hj)

theorem State.Alike.cwRange_eq {lo n : Nat} (hv : s.AllValid lo n) : t.cwRange lo n = s.cwRange lo n := by
  refine List.map_congr_left fun p hp => ?_
  obtain ⟨hlo, hhi⟩ := List.mem_range'_1.1 hp
  exact h.cw p (hv p hlo hhi)

theorem State.Alike.residue_eq (hv : s.AllValid 0 (s.snap.ndata + s.snap.k)) : t.residue = s.residue := by
  rw [State.residue, State.residue, h.snap_eq, h.coeffs_eq, h.cwRange_eq hv]

theorem State.Alike.fbByte_eq (hg : s.gridValid = true) {b : Nat} (hb : b < s.fbBits / 8) :
    extractByte (fbBit t.fb) b = extractByte (fbBit s.fb) b :=
  extractByte_congr fun _ _ => h.fb hg _ (by omega)

theorem State.Alike.rowPatterns_eq {row : Nat} (hv : s.AllValid (row * s.snap.dcols) s.snap.dcols) :
    t.rowPatterns row = s.rowPatterns row := by
  have hcw : ((List.range s.snap.dcols).map fun c => s.patAt (row % 3) (t.cwAt (row * s.snap.dcols + c)).val) =
      (List.range s.snap.dcols).map fun c => s.patAt (row % 3) (s.cwAt (row * s.snap.dcols + c)).val := by
    refine List.map_congr_left fun c hc => ?_
    rw [h.cw _ (hv _ (Nat.le_add_right _ _) (Nat.add_lt_add_left (List.mem_range.1 hc) _))]
  obtain ⟨_, _, _, _, rfl⟩ := h.exists_contents
  exact congrArg (fun l => s.inst.startPattern :: s.patAt (row % 3) (s.snap.left row) :: l ++
    [s.patAt (row % 3) (s.snap.right row), s.inst.stopPattern]) hcw

theorem State.Alike.rowDraws_eq {row : Nat} (hv : s.AllValid (row * s.snap.dcols) s.snap.dcols) :
    t.rowDraws row = s.rowDraws row := by
  rw [State.rowDraws, State.rowDraws, h.rowPatterns_eq hv]
  obtain ⟨_, _, _, _, rfl⟩ := h.exists_contents
  rfl

theorem State.Alike.symbolDraws_eq (hv : s.AllValid 0 (s.snap.rows * s.snap.dcols)) :
    (List.range t.snap.rows).flatMap t.rowDraws = (List.range s.snap.rows).flatMap s.rowDraws := by
  rw [h.snap_eq]
  refine List.flatMap_congr fun row hrow => h.rowDraws_eq fun p _ hp => hv p (Nat.zero_le p) ?_
  calc p < row * s.snap.dcols + s.snap.dcols := hp
    _ = (row + 1) * s.snap.dcols := (Nat.succ_mul _ _).symm
    _ ≤ s.snap.rows * s.snap.dcols := Nat.mul_le_mul_right _ (List.mem_range.1 hrow)
    _ = 0 + s.snap.rows * s.snap.dcols := (Nat.zero_add _).symm

/-- A store leaves the stored codewords in both states, and the valid entries outside it as they were. -/
theorem State.Alike.cwAt_storeCws {lo p : Nat} (vs : List Codeword) (hv : (s.storeCws lo vs).cwValid p = true) :
    (t.storeCws lo vs).cwAt p = (s.storeCws lo vs).cwAt p := by
  rw [State.cwAt_storeCws, State.cwAt_storeCws]
  split
  next => rfl
  next hout =>
    rw [s.cwValid_storeCws_outside (by omega)] at hv
    exact h.cw p hv

end

/-- Slots written from a whole accumulator read the same whatever stood in them. -/
theorem State.accAt_setAcc_congr {A : List Codeword} {k j : Nat} (hA : A.length = k) (hj : j < k) (s t : State) :
    (t.setAcc A).accAt j = (s.setAcc A).accAt j := by
  rw [State.accAt_setAcc, State.accAt_setAcc, hA, if_pos hj, if_pos hj]

/-! Two runs of one command's operation. -/

section
variable (h : s.Alike t)
include h

/-- What an operation leaves in the registers and flags is computed from registers and flags. -/
theorem State.Alike.operation_registers (i : Instr) :
    operation i t = { operation i s with
      acc := (operation i t).acc, cw := (operation i t).cw, pb := (operation i t).pb, fb := (operation i t).fb,
      cwv := (operation i t).cwv, rsp := (operation i t).rsp } := by
  obtain ⟨_, _, _, _, rfl⟩ := h.exists_contents
  cases i <;> rfl

/-- The entries a command makes valid are the same in both states (R38). -/
theorem State.Alike.operation_cwv (hp : testsPass i s) : (operation i t).cwv = (operation i s).cwv := by
  cases i with
  | eccFin =>
    obtain ⟨habsorb, -⟩ := hp
    show (t.storeCws t.snap.ndata (t.accSlots.map negmod).reverse).cwv = _
    rw [h.accSlots_eq (by simp [habsorb]), h.snap_eq, State.storeCws_cwv, h.cwv_eq]
    rfl
  | _ =>
    obtain ⟨_, _, _, _, rfl⟩ := h.exists_contents
    rfl

/-- A response reads only what alike states agree on (R323). -/
theorem State.Alike.operation_rsp (hs : s.SessionOk) (hg : s.session = true ∨ gateOf i ≠ .session)
    (hp : testsPass i s) : (operation i t).rsp = (operation i s).rsp := by
  have ho (hi : gateOf i = .session) : s.session = true := hg.resolve_right (· hi)
  have hrespond {v v' : Nat} (hv : v' = v) : (t.respondNat v').rsp = (s.respondNat v).rsp := by
    rw [hv, State.respondNat_rsp, State.respondNat_rsp, h.rsp_eq]
  cases i with
  | eccRdacc j =>
    obtain ⟨hphase, hj⟩ := hp
    exact hrespond (congrArg Fin.val (h.acc hphase j hj))
  | eccChk =>
    obtain ⟨-, hv⟩ := hp
    exact hrespond (congrArg (fun A : List Codeword => (A.all (· == 0)).toNat) (h.residue_eq hv))
  | cwRd idx =>
    obtain ⟨-, hv⟩ := hp
    exact hrespond (congrArg Fin.val (h.cw idx hv))
  | pbGetb n =>
    obtain ⟨hv, -⟩ := hp
    exact hrespond (congrArg (fun x : Word => (x.getLsbD n).toNat) (h.pb hv))
  | pbByte b =>
    obtain ⟨hv, -⟩ := hp
    exact hrespond (congrArg (fun x : Word => extractByte x.getLsbD b) (h.pb hv))
  | fbGetb n =>
    obtain ⟨hgrid, hn⟩ := hp
    exact hrespond (congrArg Bool.toNat (h.fb hgrid n hn))
  | fbByte b =>
    obtain ⟨hgrid, hb⟩ := hp
    exact hrespond (h.fbByte_eq hgrid hb)
  | pxGet x y =>
    obtain ⟨hgrid, hx, hy⟩ := hp
    have hbit := congrArg Bool.toNat (h.fb hgrid _ (hs.pixelBit_lt (ho rfl) hx hy))
    obtain ⟨_, _, _, _, rfl⟩ := h.exists_contents
    exact hrespond hbit
  | gridRawb n =>
    obtain ⟨hgrid, hn⟩ := hp
    have hbyte := h.fbByte_eq hgrid (hs.rawByteIndex_lt (ho rfl) hn)
    obtain ⟨_, _, _, _, rfl⟩ := h.exists_contents
    exact hrespond hbyte
  | _ =>
    obtain ⟨_, _, _, _, rfl⟩ := h.exists_contents
    rfl

/-- The corrector's commands compute the accumulator from slots in use and valid codewords (R126 to R131). -/
theorem State.Alike.operation_acc (hp : testsPass i s) (hphase : (operation i s).eccPhase ≠ .idle) {j : Nat}
    (hj : j < (operation i s).snap.k) : (operation i t).accAt j = (operation i s).accAt j := by
  cases i with
  | begin_ | sreset => exact absurd rfl hphase
  | eccStart =>
    have hzero (u : State) : (u.acc.fill 0 s.snap.k 0).read 0 j = 0 := (Memory.read_fill ..).trans (if_pos hj)
    show (t.acc.fill 0 t.snap.k 0).read 0 j = (s.acc.fill 0 s.snap.k 0).read 0 j
    rw [h.snap_eq, hzero, hzero]
  | eccPush cw =>
    show (t.setAcc (absorb t.accSlots (toCodeword cw) t.coeffs)).accAt j = _
    rw [h.accSlots_eq hphase, h.coeffs_eq]
    exact State.accAt_setAcc_congr (s.length_absorb_accSlots _) hj s t
  | eccRun =>
    obtain ⟨-, hv⟩ := hp
    show (t.setAcc (absorbAll t.accSlots (t.cwRange t.eccCount (t.snap.ndata - t.eccCount)) t.coeffs)).accAt j = _
    rw [h.accSlots_eq hphase, h.coeffs_eq, h.snap_eq, h.eccCount_eq, h.cwRange_eq hv]
    exact State.accAt_setAcc_congr (s.length_absorbAll_accSlots _) hj s t
  | eccFin =>
    obtain ⟨habsorb, -⟩ := hp
    show (t.setAcc (t.accSlots.map negmod)).accAt j = _
    rw [h.accSlots_eq (by simp [habsorb])]
    exact State.accAt_setAcc_congr ((List.length_map _).trans s.length_accSlots) hj s t
  | eccChk =>
    obtain ⟨-, hv⟩ := hp
    show (t.setAcc t.residue).accAt j = _
    rw [h.residue_eq hv]
    exact State.accAt_setAcc_congr s.length_residue hj s t
  | _ => exact h.acc hphase j hj

/-- A command that stores codewords stores the same ones (R127, R129, R150). -/
theorem State.Alike.operation_cw (hp : testsPass i s) {p : Nat} (hv : (operation i s).cwValid p = true) :
    (operation i t).cwAt p = (operation i s).cwAt p := by
  cases i with
  | begin_ | sreset => nomatch hv
  | eccPush cw =>
    show (t.storeCws t.eccCount [toCodeword cw]).cwAt p = _
    rw [h.eccCount_eq]
    exact h.cwAt_storeCws [toCodeword cw] hv
  | eccFin =>
    obtain ⟨habsorb, -⟩ := hp
    show (t.storeCws t.snap.ndata (t.accSlots.map negmod).reverse).cwAt p = _
    rw [h.snap_eq, h.accSlots_eq (by simp [habsorb])]
    exact h.cwAt_storeCws _ hv
  | cwWr idx cw => exact h.cwAt_storeCws [toCodeword cw] hv
  | _ => exact h.cw p hv

/-- A command that writes the pattern buffer loads a constant of the instance or updates a valid buffer (R161 to R166,
R211 to R213, R223). -/
theorem State.Alike.operation_pb (hv : (operation i s).pbValid = true) : (operation i t).pb = (operation i s).pb := by
  cases i with
  | begin_ => nomatch hv
  | pbSetb n | pbClrb n => exact congrArg (putBit · n _) (h.pb hv)
  | pbAndi mask => exact congrArg (· &&& BitVec.ofNat 32 mask) (h.pb hv)
  | sreset | pbClr | pbFill | patLd | patStart | patStop | renderRow | render =>
    obtain ⟨_, _, _, _, rfl⟩ := h.exists_contents
    rfl
  | _ => exact h.pb hv

/-- A command that writes the frame memory writes the same bits in both states, and `GRID.INIT` every allocated one
(R169 to R173, R190 to R192, R218 to R224). -/
theorem State.Alike.operation_fb (hs : s.SessionOk) (hg : s.session = true ∨ gateOf i ≠ .session)
    (hp : testsPass i s) (hgrid : (operation i s).gridValid = true) {j : Nat} (hj : j < (operation i s).fbBits) :
    fbBit (operation i t).fb j = fbBit (operation i s).fb j := by
  have ho (hi : gateOf i = .session) : s.session = true := hg.resolve_right (· hi)
  cases i with
  | begin_ | sreset => nomatch hgrid
  | gridInit =>
    have hused : j < 32 * s.geom.fbUsed := hs.fbBits_eq (ho rfl) ▸ hj
    show fbBit (fbFillWords t.fb t.geom.fbUsed 0x00#8) j = fbBit (fbFillWords s.fb s.geom.fbUsed 0x00#8) j
    rw [h.geom_eq, fbBit_fbFillWords, fbBit_fbFillWords, if_pos hused, if_pos hused]
  | renderRow row =>
    obtain ⟨-, -, hv⟩ := hp
    rw [operation_renderRow_fb, operation_renderRow_fb, List.flatMap_singleton, List.flatMap_singleton,
      h.rowDraws_eq hv]
    exact fbBit_draws_congr (h.fb hgrid j hj) _
  | render =>
    obtain ⟨-, hv⟩ := hp
    rw [operation_render_fb, operation_render_fb, h.symbolDraws_eq hv]
    exact fbBit_draws_congr (h.fb hgrid j hj) _
  | drawPb row slot =>
    obtain ⟨-, hpb, -, -⟩ := hp
    rw [operation_drawPb_fb, operation_drawPb_fb, h.pb hpb]
    have hbit := fbBit_draws_congr (h.fb hgrid j hj) (s.patternDraws row slot s.pb)
    obtain ⟨_, _, _, _, rfl⟩ := h.exists_contents
    exact hbit
  | fbClr | fbFill =>
    have hbit := h.fb hgrid j hj
    obtain ⟨_, _, _, _, rfl⟩ := h.exists_contents
    exact fbBit_fbFillWords_congr hbit _ _
  | fbSetb | fbClrb | pxSet | pxClr =>
    have hbit := h.fb hgrid j hj
    obtain ⟨_, _, _, _, rfl⟩ := h.exists_contents
    exact fbBit_fbSetBit_congr hbit _ _
  | drawBar | drawSpc =>
    have hbit := h.fb hgrid j hj
    obtain ⟨_, _, _, _, rfl⟩ := h.exists_contents
    exact fbBit_fbSetBits_congr hbit _ _
  | _ => exact h.fb hgrid j hj

theorem State.Alike.after_operation (hs : s.SessionOk) (hg : s.session = true ∨ gateOf i ≠ .session)
    (hp : testsPass i s) : (operation i s).Alike (operation i t) where
  rest := by
    have hrest := h.operation_registers i
    rw [h.operation_cwv hp, h.operation_rsp hs hg hp] at hrest
    exact hrest
  acc hphase _ := h.operation_acc hp hphase
  cw _ := h.operation_cw hp
  pb := h.operation_pb
  fb hgrid _ := h.operation_fb hs hg hp hgrid

end

/-! Two runs of one rule: the tests read no contents. -/

/-- The fault a rule's answer raises, if it raises one. -/
def RuleResult.raised (k : RuleResult) : Option Raised :=
  match k with
  | .ok _ => none
  | .error r => some r

@[simp] theorem raised_ok : RuleResult.raised (.ok t) = none := rfl

@[simp] theorem raised_error {r : Raised} : RuleResult.raised (.error r) = some r := rfl

@[simp] theorem raised_need {p : Prop} [Decidable p] {r : Raised} {k : RuleResult} :
    (need p r k).raised = if p then k.raised else some r := by
  unfold need; split <;> rfl

@[simp] theorem raised_needValid {lo n : Nat} {k : RuleResult} :
    (needValid s lo n k).raised = (s.firstInvalid lo n).elim k.raised fun p => some (.uninitRead, p) := by
  unfold needValid; split <;> simp [*]

theorem raised_eq_none {k : RuleResult} : k.raised = none ↔ ∃ u, k = .ok u := by
  cases k <;> simp

theorem raised_eq_some {k : RuleResult} {r : Raised} : k.raised = some r ↔ k = .error r := by
  cases k <;> simp

/-- No test of a command reads contents of a memory (R292, R323). -/
theorem State.Alike.ownRule_raised (h : s.Alike t) (i : Instr) : (ownRule i t).raised = (ownRule i s).raised := by
  obtain ⟨_, _, _, _, rfl⟩ := h.exists_contents
  cases i <;>
    simp only [ownRule, wrcfgRule, beginRule, checkSettings, eccStartRule, eccPushRule, eccRunRule, eccFinRule,
      eccRdaccRule, eccChkRule, cwWrRule, cwRdRule, pbGetbRule, pbPutRule, pbAndiRule, pbByteRule, fbGetbRule,
      fbPutRule, fbByteRule, gridInitRule, pxSetRule, pxClrRule, pxGetRule, needPixel, gridRawbRule, patLdRule,
      indLRule, indRRule, drawBarRule, drawSpcRule, needModule, drawPbRule, renderRowRule, renderRule, needIndex,
      needCodeword, needPhase, needGrid, needPb, raised_need, raised_needValid, raised_ok] <;> rfl

/-- A rule answers alike in alike states: both complete, or both raise one fault. -/
theorem State.Alike.ownRule_cases (h : s.Alike t) (hs : s.SessionOk) (hg : s.session = true ∨ gateOf i ≠ .session) :
    (∃ u v, ownRule i s = .ok u ∧ ownRule i t = .ok v ∧ u.Alike v) ∨
    (∃ r, ownRule i s = .error r ∧ ownRule i t = .error r) := by
  have hraised := h.ownRule_raised i
  cases hi : ownRule i s with
  | ok u =>
    obtain ⟨v, hv⟩ := raised_eq_none.1 (hraised.trans (raised_eq_none.2 ⟨u, hi⟩))
    obtain ⟨hp, rfl⟩ := ownRule_eq_ok.1 hi
    obtain ⟨-, rfl⟩ := ownRule_eq_ok.1 hv
    exact .inl ⟨_, _, rfl, hv, h.after_operation hs hg hp⟩
  | error r => exact .inr ⟨r, rfl, raised_eq_some.1 (hraised.trans (raised_eq_some.2 hi))⟩

end Sys2Proof.Machine
end

section
/-! Contents nothing in the session wrote are unobservable (R323, R338): alike states take every input to alike
states. -/

namespace Sys2Proof.Machine

variable {s t s' : State}

theorem State.Alike.raise (h : s.Alike t) (r : Raised) (w : Word) : (s.raise r w).Alike (t.raise r w) := by
  obtain ⟨_, _, _, _, rfl⟩ := h.exists_contents
  exact ⟨rfl, h.acc, h.cw, h.pb, h.fb⟩

theorem State.Alike.with_port (h : s.Alike t) (p : List HostInput) :
    State.Alike { s with port := p } { t with port := p } := by
  obtain ⟨_, _, _, _, rfl⟩ := h.exists_contents
  exact ⟨rfl, h.acc, h.cw, h.pb, h.fb⟩

/-- Reset leaves nothing of the contents (R42). -/
theorem State.Alike.resetNow_eq (h : s.Alike t) : t.resetNow = s.resetNow := by
  obtain ⟨_, _, _, _, rfl⟩ := h.exists_contents
  rfl

theorem State.Alike.faulted_eq (h : s.Alike t) : t.faulted = s.faulted := by rw [h.rest]

theorem State.Alike.session_eq (h : s.Alike t) : t.session = s.session := by rw [h.rest]

theorem State.Alike.port_eq (h : s.Alike t) : t.port = s.port := by rw [h.rest]

theorem exec_of_ok {i : Instr} (hf : s.faulted = false ∨ gateOf i = .always)
    (hg : s.session = true ∨ gateOf i ≠ .session) (h : ownRule i s = .ok s') : exec i s = .next s' :=
  hf.elim (fun hf => (exec_eq i s).trans (command_ok hf hg h)) fun ha => exec_always ha h

theorem exec_of_error {i : Instr} {r : Raised} (hf : s.faulted = false ∨ gateOf i = .always)
    (hg : s.session = true ∨ gateOf i ≠ .session) (h : ownRule i s = .error r) :
    exec i s = .next (s.raise r (encode i)) :=
  (exec_eq i s).trans (command_error (hf.resolve_right (gateOf_ne_always_of_error h)) hg h)

/-- The common gate asks only for flags (R105), so a command is dropped, faults or completes in both states. -/
theorem State.Alike.exec_next (h : s.Alike t) (hs : s.SessionOk) {i : Instr} (hx : exec i s = .next s') :
    ∃ t', exec i t = .next t' ∧ s'.Alike t' := by
  obtain ⟨hf, hg, rfl⟩ | ⟨hf, ho, hg, rfl⟩ | ⟨hf, hg, -⟩ := command_cases (exec_eq i s ▸ hx)
  · exact ⟨t, exec_dropped (h.faulted_eq.trans hf) hg, h⟩
  · exact ⟨_, exec_noSession (h.faulted_eq.trans hf) (h.session_eq.trans ho) hg, h.raise _ _⟩
  · have hft : t.faulted = false ∨ gateOf i = .always := hf.imp_left h.faulted_eq.trans
    have hgt : t.session = true ∨ gateOf i ≠ .session := hg.imp_left h.session_eq.trans
    obtain ⟨u, v, hu, hv, huv⟩ | ⟨r, hr, hrt⟩ := h.ownRule_cases hs hg
    · cases (exec_of_ok hf hg hu).symm.trans hx
      exact ⟨v, exec_of_ok hft hgt hv, huv⟩
    · cases (exec_of_error hf hg hr).symm.trans hx
      exact ⟨_, exec_of_error hft hgt hrt, h.raise r _⟩

/-- An illegal word is dropped or faults in both states (R84, R105). -/
theorem State.Alike.illegalCommand_next (h : s.Alike t) {w : Word} (hx : illegalCommand w s = .next s') :
    ∃ t', illegalCommand w t = .next t' ∧ s'.Alike t' := by
  cases hf : s.faulted with
  | true =>
    cases (illegalCommand_faulted hf).symm.trans hx
    exact ⟨t, illegalCommand_faulted (h.faulted_eq.trans hf), h⟩
  | false =>
    cases (illegalCommand_unfaulted hf).symm.trans hx
    exact ⟨_, illegalCommand_unfaulted (h.faulted_eq.trans hf), h.raise _ _⟩

theorem State.Alike.runWord_next (h : s.Alike t) (hs : s.SessionOk) {w : Word} (hx : runWord w s = .next s') :
    ∃ t', runWord w t = .next t' ∧ s'.Alike t' := by
  cases hd : decode w with
  | ok i =>
    rw [runWord_of_decode hd] at hx ⊢
    exact h.exec_next hs hx
  | error e =>
    rw [runWord_of_decode_error hd] at hx ⊢
    exact h.illegalCommand_next hx

theorem step_of_hardwareReset_presented {rest : List HostInput} (h : s.port = .hardwareReset :: rest) :
    step s = .next { s with port := rest }.resetNow := by
  unfold step State.takeInput
  rw [h]

theorem step_of_command_presented {w : Word} {rest : List HostInput} (h : s.port = .command w :: rest) :
    step s = runWord w { s with port := rest } := by
  unfold step State.takeInput
  rw [h]

theorem State.Alike.step_next (h : s.Alike t) (hs : s.SessionOk) (hx : step s = .next s') :
    ∃ t', step t = .next t' ∧ s'.Alike t' := by
  obtain ⟨hp, rfl⟩ | ⟨rest, hp, rfl⟩ | ⟨w, rest, hp, hx⟩ := step_cases hx
  · exact ⟨t, step_of_nothing_presented (h.port_eq.trans hp), h⟩
  · refine ⟨_, step_of_hardwareReset_presented (h.port_eq.trans hp), ?_⟩
    rw [(h.with_port rest).resetNow_eq]
    exact .refl _
  · rw [step_of_command_presented (h.port_eq.trans hp)]
    exact (h.with_port rest).runWord_next hs hx

/-- Settles O21: the inputs, words and commands of alike states go the same way, because tests read no contents; and an
operation computes responses, registers and contents in use from contents in use. -/
theorem unspecifiedContentsAreUnobservable : Obligations.UnspecifiedContentsAreUnobservable :=
  fun _ _ _ hinv h hx => h.step_next hinv.session hx

end Sys2Proof.Machine
end
